-- ==== Sys2Proof/Word.lean ====
section
/-! DEFINITION. The word types of the crypto-visualizer core (spec/00_scope.md R6, R7, R8). -/

namespace Sys2Proof

/-- "an 8-bit unsigned value (0–255)" (R6). -/
abbrev Byte := BitVec 8

/-- A 32-bit bus word, command word or modular-exponentiation operand (R7: `BUSW`, `MPW`). -/
abbrev Word := BitVec 32

/-- A byte offset in the 256-byte register window (R7 `WINDOW`, R60). -/
abbrev Offset := BitVec 8

/-- A 16-byte array: the AES state, the key or one round key (R6, R9). -/
abbrev Block := Vector Byte 16

/-- A word of the key schedule: four bytes in order, never a number (R151). -/
abbrev KeyWord := Vector Byte 4

/-- The Round Key Set: 11 round keys (R6, R23). -/
abbrev RoundKeys := Vector Block 11

end Sys2Proof
end

