-- ==== Sys2Proof/Config.lean ====
section
/-! DEFINITION. What the spec leaves open, as values nothing constrains (spec/00_scope.md R7, spec/93 part 2). -/

namespace Sys2Proof

/-- `BUSY_READ` (R7, R65, U8): the `n`-th value drawn by a read of a data register while `BUSY`=1.
A free value; the step supplies it from the counter `State.draws`.  DESIGN CHOICE, log entry 2. -/
opaque Config.busyRead (n : Nat) : Word

/-- The result of a modular power whose modulus is 0: "`ModPow` is not defined for `m = 0`" (R170).
A free value of the base and the exponent; no reachable state asks for it.  DESIGN CHOICE, log entry 3. -/
opaque Config.modulusZero (base exponent : Word) : Word

end Sys2Proof
end

