-- ==== Sys2Proof/Syntax.lean ====
section
/-! DEFINITION. The commands: one constructor per row of spec/opcode_table.json (spec/30_encoding.md R93). -/

namespace Sys2Proof

/-- The ten commands of R93. Every operand but the round-key index is a register fixed by the command (R92, R26). -/
inductive Instr where
  /-- NOP (R190). -/
  | nop
  /-- SUBBYTES (R132). -/
  | subbytes
  /-- SHIFTROWS (R134). -/
  | shiftrows
  /-- MIXCOLUMNS (R137). -/
  | mixcolumns
  /-- ADDROUNDKEY r (R139), `r` the four bits of `RKSEL` as they stand (R92). -/
  | addroundkey (r : BitVec 4)
  /-- KEYEXP (R154). -/
  | keyexp
  /-- ENCRYPT (R156). -/
  | encrypt
  /-- GFMUL (R123). -/
  | gfmul
  /-- MODPOW (R174). -/
  | modpow
  /-- RSAENC (R175). -/
  | rsaenc
  deriving DecidableEq, Repr

end Sys2Proof
end

