-- ==== Sys2Proof/WellFormed.lean ====
section
/-! DEFINITION. Which terms of Instr the spec has an encoding for (spec/30_encoding.md R92). -/

namespace Sys2Proof

/-- The one check: a round-key index is 0 to 10, "rounds 0–10" (R92). Every other command has no operand. -/
def Instr.wellFormed : Instr → Bool
  | .nop => true
  | .subbytes => true
  | .shiftrows => true
  | .mixcolumns => true
  | .addroundkey r => decide (r.toNat ≤ 10)
  | .keyexp => true
  | .encrypt => true
  | .gfmul => true
  | .modpow => true
  | .rsaenc => true

end Sys2Proof
end

