-- ==== Sys2Proof/Decode.lean ====
section
/-! DEFINITION. Decoding a command word, total, with a name for every rejection, and the encoder after it
(spec/30_encoding.md R91 to R95). -/

namespace Sys2Proof

/-- Why a word is no command (R95). Each is reported as ERR_ILLEGAL when the word is issued. -/
inductive DecodeError where
  /-- A bit of [31:12] is set. -/
  | zeroFieldSet
  /-- `OPC` = 0x04 with `RKSEL` in 11..15. -/
  | roundKeyIndexTooLarge
  /-- A format-N opcode, or an unassigned one, with `RKSEL` ≠ 0. -/
  | selectorSet
  /-- An opcode no command has. -/
  | unassignedOpcode
  deriving DecidableEq, Repr

/-- The field `OPC` (R91). -/
def opcodeField (w : Word) : Byte := w.extractLsb' 0 8

/-- The field `RKSEL` (R91, R92). -/
def rkselField (w : Word) : BitVec 4 := w.extractLsb' 8 4

/-- The field `ZERO` (R91). -/
def zeroField (w : Word) : BitVec 20 := w.extractLsb' 12 20

/-- The commands of format N, by opcode (R93). -/
def formatNCommand (opc : Byte) : Except DecodeError Instr :=
  if opc = 0x00 then .ok .nop
  else if opc = 0x01 then .ok .subbytes
  else if opc = 0x02 then .ok .shiftrows
  else if opc = 0x03 then .ok .mixcolumns
  else if opc = 0x05 then .ok .keyexp
  else if opc = 0x06 then .ok .encrypt
  else if opc = 0x10 then .ok .gfmul
  else if opc = 0x20 then .ok .modpow
  else if opc = 0x21 then .ok .rsaenc
  else .error .unassignedOpcode

/-- `decode(w)`, in the order of R94. -/
def decode (w : Word) : Except DecodeError Instr :=
  if zeroField w ≠ 0 then .error .zeroFieldSet
  else if opcodeField w = 0x04 then
    if (rkselField w).toNat ≤ 10 then .ok (.addroundkey (rkselField w))
    else .error .roundKeyIndexTooLarge
  else if rkselField w ≠ 0 then .error .selectorSet
  else formatNCommand (opcodeField w)

/-- A command word from its fields, `ZERO` being 0: `OPC | (RKSEL << 8)` (R91, R93). -/
def commandWord (rksel : BitVec 4) (opc : Byte) : Word := opc.zeroExtend 32 ||| (rksel.zeroExtend 32 <<< 8)

/-- The word that selects a command (R93). -/
def encode : Instr → Word
  | .nop => commandWord 0 0x00
  | .subbytes => commandWord 0 0x01
  | .shiftrows => commandWord 0 0x02
  | .mixcolumns => commandWord 0 0x03
  | .addroundkey r => commandWord r 0x04
  | .keyexp => commandWord 0 0x05
  | .encrypt => commandWord 0 0x06
  | .gfmul => commandWord 0 0x10
  | .modpow => commandWord 0 0x20
  | .rsaenc => commandWord 0 0x21

/-- The low `nbits` bits of `w` as a command word: a command is one 32-bit value, carried whole (R66, R90). -/
def tableWord (nbits w : Nat) : Word := BitVec.ofNat 32 (w % 2 ^ nbits)

/-- What the decoder reads from an instruction whose bits are `w`, numbered as spec/opcode_table.json numbers them.
A value that does not fit one 32-bit word is no command (R90). -/
def decodeTableWord (nbits w : Nat) : Option Instr :=
  if w % 2 ^ nbits < 2 ^ 32 then (decode (tableWord nbits w)).toOption else none

end Sys2Proof
end

