-- ==== Sys2Proof/Machine/State.lean ====
section
/-! DEFINITION. The state of the core, all of it, the outside world as a list of events, and the state after reset
(spec/10_state.md R20 to R25, R31, R42, R50). -/

namespace Sys2Proof.Machine

/-- The fields of the register `STATUS` (R31). Its reserved bits have no storage (R38). -/
structure Status where
  /-- Bit 0: a command is in flight (R32). -/
  busy : Bool
  /-- Bit 1: the last accepted command has completed (R33). -/
  done : Bool
  /-- Bit 2: `RK` is the expansion of the present `KEY` (R34). -/
  keyValid : Bool
  /-- Bit 3: an error is recorded (R35). -/
  errf : Bool
  /-- Bit 4: a bus write was dropped (R36). -/
  ovr : Bool
  /-- Bits 11:8: the error code (R35, R201). -/
  ecode : BitVec 4
  deriving DecidableEq, Repr

/-- One thing that can happen to the block next: a host transaction (R62), the core's turn to complete (R98) or a
reset by the environment (R240). -/
inductive Event where
  /-- `MemRead(off, n)`: a read of `n` bytes at byte offset `off`. -/
  | read (off : Offset) (n : Nat)
  /-- `MemWrite(off, n, v)`: a write of `v`, `n` bytes, at byte offset `off`. The value is held as a word: one of another
  size is never looked at (R63, log entry 12). -/
  | write (off : Offset) (n : Nat) (v : Word)
  /-- The core's completion step falls here, if a command is in flight. -/
  | complete
  /-- The environment resets the block here. -/
  | reset
  deriving DecidableEq, Repr

/-- What a transaction returns (R62). -/
inductive Reply where
  /-- A read returned this word. -/
  | value (v : Word)
  /-- A write was taken (or dropped, or ignored): `Ok`. -/
  | ok
  /-- The access was not admitted: `BusError` (R63). -/
  | busError
  deriving DecidableEq, Repr

/-- The state. The fields from `st` to `ifc` are the spec's (R20); the last three are the model's own and stand for
the world outside the block (log entries 2, 5, 10). -/
structure State where
  /-- `ST`, the AES state (R21). -/
  st : Block
  /-- `KEY`, the cipher key (R22). -/
  key : Block
  /-- `RK`, the round key set (R23). -/
  rk : RoundKeys
  /-- `GFA` (R24). -/
  gfa : Byte
  /-- `GFB` (R24). -/
  gfb : Byte
  /-- `GFP` (R24). -/
  gfp : Byte
  /-- `MPB`, the base (R25). -/
  mpb : Word
  /-- `MPE`, the exponent (R25). -/
  mpe : Word
  /-- `MPM`, the modulus (R25). -/
  mpm : Word
  /-- `MPR`, the result (R25). -/
  mpr : Word
  /-- `STATUS` (R31). -/
  status : Status
  /-- `ECMD`, the command word that raised the recorded error (R37). -/
  ecmd : Word
  /-- `IFC`, the command in flight, hidden (R42). -/
  ifc : Word
  /-- What happens next, oldest first: the order of host transactions, completions and resets (R73). -/
  inbox : List Event
  /-- What the transactions so far have returned, newest first (R62). -/
  replies : List Reply
  /-- How many values of `BUSY_READ` have been drawn (R65). -/
  draws : Nat
  deriving DecidableEq, Repr

/-- Why the machine can stop. -/
inductive Fault where
  /-- Raised by a completion, or by the meaning of ADDROUNDKEY with an index above 10, while `BUSY`=1: the word in flight
  is illegal, so the spec gives the step no effect. R43 (v) says no reachable state is like this. Safe: the model stops
  where the hardware cannot be (log entry 4). -/
  | illegalInFlight (w : Word)
  deriving DecidableEq, Repr

/-- Why an instruction can be refused a meaning. -/
inductive Refusal where
  /-- Raised by an arm of `exec` for an instruction with no meaning yet. No arm raises it. Safe. -/
  | notModelled (mnemonic : String)
  deriving DecidableEq, Repr

/-- The state after reset: R50, and a value for `IFC`, which R50 leaves unspecified (DESIGN CHOICE 0, log entry 1);
nothing is waiting outside (log entries 2, 5, 10). -/
def State.reset : State where
  st := Vector.replicate 16 0
  key := Vector.replicate 16 0
  rk := Vector.replicate 11 (Vector.replicate 16 0)
  gfa := 0
  gfb := 0
  gfp := 0
  mpb := 0
  mpe := 0
  mpm := 0
  mpr := 0
  status := ⟨false, false, false, false, false, 0⟩
  ecmd := 0
  ifc := 0
  inbox := []
  replies := []
  draws := 0

end Sys2Proof.Machine
end

