-- ==== Sys2Proof/Machine/Flags.lean ====
section
/-! DEFINITION. The register STATUS: its word, its write-one-to-clear bits, the error codes, and what issue,
completion and errors do to its fields (spec/10_state.md R31 to R36, spec/60_exceptions.md R201). -/

namespace Sys2Proof.Machine

/-- The causes of an error (R201). -/
inductive ErrCode where
  /-- `decode(w)` = Illegal. -/
  | illegal
  /-- `KEYVALID` = 0. -/
  | noKey
  /-- `MPM` = 0. -/
  | modZero
  /-- `MPB` ≥ `MPM` with `MPM` ≠ 0. -/
  | range
  deriving DecidableEq, Repr

/-- The number of a cause in `ECODE` (R201). -/
def ErrCode.bits : ErrCode → BitVec 4
  | .illegal => 1
  | .noKey => 2
  | .modZero => 3
  | .range => 4

/-- The 32-bit value of `STATUS`: each field at its lowest bit (R31). Reserved bits read 0 (R38). -/
def statusWord (f : Status) : Word :=
  (BitVec.ofBool f.busy).zeroExtend 32
    ||| ((BitVec.ofBool f.done).zeroExtend 32 <<< 1)
    ||| ((BitVec.ofBool f.keyValid).zeroExtend 32 <<< 2)
    ||| ((BitVec.ofBool f.errf).zeroExtend 32 <<< 3)
    ||| ((BitVec.ofBool f.ovr).zeroExtend 32 <<< 4)
    ||| (f.ecode.zeroExtend 32 <<< 8)

/-- `DONE <- 0` (R33). -/
def clearDone (f : Status) : Status := { f with done := false }

/-- An accepted command starts: `DONE <- 0`, `BUSY <- 1` (R97). -/
def startFlags (f : Status) : Status := { f with busy := true, done := false }

/-- A command completes: `BUSY <- 0`, `DONE <- 1` (R98). -/
def finishFlags (f : Status) : Status := { f with busy := false, done := true }

/-- An error is recorded: `ERRF <- 1`, `ECODE <- code` (R204). -/
def errorFlags (code : ErrCode) (f : Status) : Status := { f with errf := true, ecode := code.bits }

/-- A write of `v` to `STATUS`: bits 1, 3 and 4 clear `DONE`, `ERRF` with `ECODE`, and `OVR`; the other bits of `v`
are ignored (R70). -/
def writeOneToClear (v : Word) (f : Status) : Status :=
  { f with
    done := f.done && !v.getLsbD 1
    errf := f.errf && !v.getLsbD 3
    ecode := if v.getLsbD 3 then 0 else f.ecode
    ovr := f.ovr && !v.getLsbD 4 }

end Sys2Proof.Machine
end

