-- ==== Sys2Proof/Machine/Operands.lean ====
section
/-! DEFINITION. Byte arrays as matrices and as bus words, the register map, and reading and writing the register that
stands at an offset (spec/00_scope.md R9, spec/20_memory.md R61, R64 to R67). -/

namespace Sys2Proof.Machine

/-- `M(A)[r][c] = A[r + 4*c]` (R9). -/
def cell (A : Block) (r c : Fin 4) : Byte := A[r.val + 4 * c.val]

/-- The block whose matrix is `f`: byte `i` fills row `i mod 4`, column `i div 4` (R9). -/
def ofMatrix (f : Fin 4 → Fin 4 → Byte) : Block :=
  Vector.ofFn fun i : Fin 16 => f ⟨i.val % 4, by omega⟩ ⟨i.val / 4, by omega⟩

/-- The array a 32-digit hex string stands for, the string read as one number: the first pair of digits is byte 0 (R9). -/
def hexBlock (h : Nat) : Block := Vector.ofFn fun i : Fin 16 => BitVec.ofNat 8 (h / 256 ^ (15 - i.val))

/-- Bits [8j+7 : 8j] of a bus word (R66). -/
def wordByte (v : Word) (j : Fin 4) : Byte := v.extractLsb' (8 * j.val) 8

/-- A bus word from four bytes: `b0 | (b1 << 8) | (b2 << 16) | (b3 << 24)` (R66). -/
def littleEndianWord (b0 b1 b2 b3 : Byte) : Word :=
  b0.zeroExtend 32 ||| (b1.zeroExtend 32 <<< 8) ||| (b2.zeroExtend 32 <<< 16) ||| (b3.zeroExtend 32 <<< 24)

/-- Word `k` of a byte array, that is, column `k` with row 0 in bits [7:0] (R66). -/
def packColumn (A : Block) (k : Fin 4) : Word := littleEndianWord (cell A 0 k) (cell A 1 k) (cell A 2 k) (cell A 3 k)

/-- A write of `v` to word `k` of a byte array: `A[4k+j] <- v[8j+7 : 8j]` (R66). -/
def setColumn (A : Block) (k : Fin 4) (v : Word) : Block :=
  ofMatrix fun j c => if c = k then wordByte v j else cell A j c

/-- What stands at a word of the window (R61). -/
inductive Target where
  | cmd
  | status
  | ecmd
  /-- 0x0C and 0x3C. -/
  | reserved
  | st (k : Fin 4)
  | key (k : Fin 4)
  | gfa
  | gfb
  | gfp
  | mpb
  | mpe
  | mpm
  | mpr
  | rk (r : Fin 11) (c : Fin 4)
  deriving DecidableEq, Repr

/-- Columns 0 to 3 by word index, for the four-word rows of R61. -/
def columnOf (off : Offset) : Fin 4 := ⟨off.toNat / 4 % 4, by omega⟩

/-- The row of R61 that holds a word-aligned offset. The last branch is 0x50 + 16·r + 4·c. -/
def targetAt (off : Offset) : Target :=
  if off.toNat < 0x04 then .cmd
  else if off.toNat < 0x08 then .status
  else if off.toNat < 0x0C then .ecmd
  else if off.toNat < 0x10 then .reserved
  else if off.toNat < 0x20 then .st (columnOf off)
  else if off.toNat < 0x30 then .key (columnOf off)
  else if off.toNat < 0x34 then .gfa
  else if off.toNat < 0x38 then .gfb
  else if off.toNat < 0x3C then .gfp
  else if off.toNat < 0x40 then .reserved
  else if off.toNat < 0x44 then .mpb
  else if off.toNat < 0x48 then .mpe
  else if off.toNat < 0x4C then .mpm
  else if off.toNat < 0x50 then .mpr
  else .rk ⟨(off.toNat - 0x50) / 16, by have := off.isLt; omega⟩ (columnOf off)

/-- The exact value of the word at a target (R64). `CMD` and reserved words read 0 (R30, R38). -/
def readTarget (t : Target) (s : State) : Word :=
  match t with
  | .cmd => 0
  | .status => statusWord s.status
  | .ecmd => s.ecmd
  | .reserved => 0
  | .st k => packColumn s.st k
  | .key k => packColumn s.key k
  | .gfa => s.gfa.zeroExtend 32
  | .gfb => s.gfb.zeroExtend 32
  | .gfp => s.gfp.zeroExtend 32
  | .mpb => s.mpb
  | .mpe => s.mpe
  | .mpm => s.mpm
  | .mpr => s.mpr
  | .rk r c => packColumn s.rk[r] c

/-- The data registers, whose reads are drawn while `BUSY`=1: `ST*`, `KEY*`, `GF*`, `MP*`, `RK*` (R65). -/
def Target.isData : Target → Bool
  | .cmd => false
  | .status => false
  | .ecmd => false
  | .reserved => false
  | .st _ => true
  | .key _ => true
  | .gfa => true
  | .gfb => true
  | .gfp => true
  | .mpb => true
  | .mpe => true
  | .mpm => true
  | .mpr => true
  | .rk _ _ => true

/-- A write of `v` to `STATUS`: the flags by R70, and `ECMD` is cleared together with `ERRF` (R35, R70, R206). -/
def writeStatus (v : Word) (s : State) : State :=
  { s with
    status := writeOneToClear v s.status
    ecmd := if v.getLsbD 3 then 0 else s.ecmd }

/-- An admitted write while `BUSY`=0 to a register that is not `CMD` (R67). Any write to a word of `KEY` clears
`KEYVALID`, whatever the value (R69). A write to `CMD` is an issue, not a write of a register (Bus.lean). -/
def writeTarget (t : Target) (v : Word) (s : State) : State :=
  match t with
  | .cmd => s
  | .status => writeStatus v s
  | .ecmd => s
  | .reserved => s
  | .st k => { s with st := setColumn s.st k v }
  | .key k => { s with key := setColumn s.key k v, status := { s.status with keyValid := false } }
  | .gfa => { s with gfa := wordByte v 0 }
  | .gfb => { s with gfb := wordByte v 0 }
  | .gfp => s
  | .mpb => { s with mpb := v }
  | .mpe => { s with mpe := v }
  | .mpm => { s with mpm := v }
  | .mpr => s
  | .rk _ _ => s

end Sys2Proof.Machine
end

