-- ==== Sys2Proof/Machine/Ops.lean ====
section
/-! DEFINITION. The shared operations: taking an error and returning from it, issuing a command, completing one, the
checks made at issue, reading the window, reset (spec/60_exceptions.md R204, R206; spec/30_encoding.md R97, R98;
spec/20_memory.md R63 to R65; spec/70_reset_and_hazards.md R240). -/

namespace Sys2Proof.Machine

/-- Error entry, `raise Err(code)` for the command word `w` (R204): the flags, the code, the word, and nothing else. -/
def raiseErr (code : ErrCode) (w : Word) (s : State) : State :=
  { s with status := errorFlags code s.status, ecmd := w }

/-- Error return (R206): the host's write to `STATUS` with bit 3 set and no other bit (`clrerr`, R100). -/
def clearErr (s : State) : State := writeStatus 0x00000008 s

/-- A legal command whose checks passed starts: `IFC <- w`, `BUSY <- 1`, `DONE <- 0` (R97). -/
def startCommand (w : Word) (s : State) : State :=
  { s with status := startFlags s.status, ifc := w }

/-- A completion sets `BUSY <- 0`, `DONE <- 1` (R98). -/
def finishCommand (s : State) : State := { s with status := finishFlags s.status }

/-- Issue of the word `w` while `BUSY`=0, `failure` being the code of its first failed check if one fails (R97).
While `ERRF`=1 nothing changes (R205). -/
def issue (w : Word) (failure : Option ErrCode) (s : State) : State :=
  if s.status.errf then s
  else
    match failure with
    | some code => raiseErr code w { s with status := clearDone s.status }
    | none => startCommand w s

/-- The one step of a command's life that is due (R96): while `BUSY`=0 its issue, while `BUSY`=1 its completion, which
takes on the state `effect` its rule gives (log entry 7). -/
def runCommand (w : Word) (failure : Option ErrCode) (effect s : State) : Host.Outcome State Fault Refusal :=
  if s.status.busy then .next (finishCommand effect) else .next (issue w failure s)

/-- The same for a word that is no command: its issue raises ERR_ILLEGAL (R95), and it can never be in flight
(R43 (v), log entry 4). -/
def illegalCommand (w : Word) (s : State) : Host.Outcome State Fault Refusal :=
  if s.status.busy then .fault (.illegalInFlight w) else .next (issue w (some .illegal) s)

/-- The check of ADDROUNDKEY and ENCRYPT: `KEYVALID` = 1, else ERR_NOKEY (R97). -/
def keyCheck (s : State) : Option ErrCode := if s.status.keyValid then none else some .noKey

/-- The check of MODPOW: `MPM` ≠ 0, else ERR_MODZERO (R97). -/
def modulusCheck (s : State) : Option ErrCode := if s.mpm = 0 then some .modZero else none

/-- The checks of RSAENC, in order: `MPM` ≠ 0, else ERR_MODZERO; `MPB` < `MPM`, else ERR_RANGE (R97, R202). -/
def rangeCheck (s : State) : Option ErrCode :=
  if s.mpm = 0 then some .modZero else if s.mpb < s.mpm then none else some .range

/-- Admission (R63). `off` is below 0x100 by its type, so an aligned word access cannot run past 0xFF. -/
def admitted (off : Offset) (n : Nat) : Bool := decide (n = 4 ∧ off.toNat % 4 = 0)

/-- A transaction has returned `r`. -/
def reply (r : Reply) (s : State) : State := { s with replies := r :: s.replies }

/-- The value an admitted read returns, `draw` being the value of `BUSY_READ` should one be needed: exact while
`BUSY`=0 (R64); while `BUSY`=1 a data register reads as the draw and the rest exactly (R65). -/
def readValue (draw : Word) (t : Target) (s : State) : Word :=
  if s.status.busy && t.isData then draw else readTarget t s

/-- `MemRead(off, n)` (R63 to R65). It changes no register; a draw that was used is spent. -/
def busRead (off : Offset) (n : Nat) (s : State) : State :=
  if admitted off n then
    reply (.value (readValue (Config.busyRead s.draws) (targetAt off) s))
      { s with draws := if s.status.busy && (targetAt off).isData then s.draws + 1 else s.draws }
  else reply .busError s

/-- An admitted write while `BUSY`=1 is dropped and only `OVR` records it (R68). -/
def dropWrite (s : State) : State := { s with status := { s.status with ovr := true } }

/-- Reset (R240): every piece of the block's state takes its reset value. The world outside keeps its own: what is
still to come, what was returned, what was drawn (log entry 10). -/
def resetBlock (s : State) : State :=
  { State.reset with inbox := s.inbox, replies := s.replies, draws := s.draws }

end Sys2Proof.Machine
end

