-- ==== Sys2Proof/Machine/Gf256.lean ====
section
/-! DEFINITION. The GF(2^8) multiplier and GFMUL (spec/40_gf256.md). -/

namespace Sys2Proof.Machine

/-- The unreduced product: XOR of `a << i` over the bits `i` of `b` that are 1, 15 bits (R120, first loop). -/
def gfmulUnreduced (a b : Byte) : BitVec 15 :=
  [0, 1, 2, 3, 4, 5, 6, 7].foldl (fun p i => if b.getLsbD i then p ^^^ (a.zeroExtend 15 <<< i) else p) 0

/-- Reduction by 0x11B, from bit 14 down to bit 8 (R120, second loop). -/
def gfReduce (p : BitVec 15) : BitVec 15 :=
  [14, 13, 12, 11, 10, 9, 8].foldl (fun p i => if p.getLsbD i then p ^^^ (0x11B#15 <<< (i - 8)) else p) p

/-- The GF(2^8) product by its definition, `gfmul_def` of R120. -/
def gfmulDef (a b : Byte) : Byte := (gfReduce (gfmulUnreduced a b)).truncate 8

/-- Multiplication by `x` modulo the polynomial: shift left, drop the bit shifted out, and XOR 0x1B if it was 1 (R121). -/
def xtime (a : Byte) : Byte := if a.getLsbD 7 then (a <<< 1) ^^^ 0x1B else a <<< 1

/-- `k` passes of the shift-and-reduce loop on `a`, `b`, `p` (R121). -/
def gfmulLoop : Nat → Byte → Byte → Byte → Byte
  | 0, _, _, p => p
  | k + 1, a, b, p => gfmulLoop k (xtime a) (b >>> 1) (if b.getLsbD 0 then p ^^^ a else p)

/-- The product the datapath computes: eight passes from `p` = 0 (R121). `x ⊗ y` in every other rule. -/
def gfmul (a b : Byte) : Byte := gfmulLoop 8 a b 0

/-- GFMUL (R123): `GFP <- gfmul(GFA, GFB)`. -/
def execGfmul (s : State) : Host.Outcome State Fault Refusal :=
  runCommand (encode .gfmul) none { s with gfp := gfmul s.gfa s.gfb } s

end Sys2Proof.Machine
end

