-- ==== Sys2Proof/Machine/AesCipher.lean ====
section
/-! DEFINITION. Key expansion, the full cipher, KEYEXP and ENCRYPT (spec/42_aes_keyexp_cipher.md). -/

namespace Sys2Proof.Machine

/-- The round constants `RCON[1..10]` in order (R150). -/
def rconTable : List Byte := [0x01, 0x02, 0x04, 0x08, 0x10, 0x20, 0x40, 0x80, 0x1B, 0x36]

/-- `RCON[j]` for `j` = 1..10 (R150). Index 0 and indices above 10 are never used. -/
def rcon (j : Nat) : Byte := rconTable.getD (j - 1) 0

/-- `RotWord([b0, b1, b2, b3]) = [b1, b2, b3, b0]` (R151). -/
def rotWord (w : KeyWord) : KeyWord := #v[w[1], w[2], w[3], w[0]]

/-- `SubWord`: each byte through the S-box (R151). -/
def subWord (w : KeyWord) : KeyWord := Vector.ofFn fun j : Fin 4 => sbox w[j]

/-- XOR of two words, byte by byte (R151). -/
def xorWord (v w : KeyWord) : KeyWord := Vector.ofFn fun j : Fin 4 => v[j] ^^^ w[j]

/-- The transformed word `t` for `i mod 4 = 0`: rotate, substitute, XOR `RCON[i div 4]` into byte 0 (R152). -/
def transformWord (i : Nat) (t : KeyWord) : KeyWord :=
  xorWord (subWord (rotWord t)) #v[rcon (i / 4), 0, 0, 0]

/-- `w[i]` from `w[i-4]` and `w[i-1]` (R152). -/
def nextKeyWord (i : Nat) (older previous : KeyWord) : KeyWord :=
  xorWord older (if i % 4 = 0 then transformWord i previous else previous)

/-- The four consecutive words `w[n], w[n+1], w[n+2], w[n+3]` of the schedule of `K`; words 0 to 3 are the key bytes in
order (R152). -/
def keyWindow (K : Block) : Nat → Vector KeyWord 4
  | 0 => Vector.ofFn fun c : Fin 4 => Vector.ofFn fun j : Fin 4 => cell K j c
  | n + 1 =>
    let p := keyWindow K n
    #v[p[1], p[2], p[3], nextKeyWord (n + 4) p[0] p[3]]

/-- Word `i` of the key schedule (R152; `i` = 0..43 in the spec). -/
def keyWord (K : Block) (i : Nat) : KeyWord := (keyWindow K i)[0]

/-- A round key from four words: byte `4c + j` is byte `j` of word `c` (R153). -/
def joinWords (ws : Vector KeyWord 4) : Block := ofMatrix fun j c => ws[c][j]

/-- `KeyExpansion(K)`: round key `r` is words `4r` to `4r + 3` (R153). -/
def keyExpansion (K : Block) : RoundKeys := Vector.ofFn fun r : Fin 11 => joinWords (keyWindow K (4 * r.val))

/-- One full round with round key `k` (R155). -/
def cipherRound (S k : Block) : Block := addRoundKey (mixColumns (shiftRows (subBytes S))) k

/-- The rounds of four transforms, in order (R155). -/
def fullRounds : List (Fin 11) := [1, 2, 3, 4, 5, 6, 7, 8, 9]

/-- `Cipher(P, R)` (R155): 1 + 9·4 + 3 = 40 transforms. -/
def cipher (P : Block) (R : RoundKeys) : Block :=
  addRoundKey
    (shiftRows (subBytes (fullRounds.foldl (fun S r => cipherRound S R[r]) (addRoundKey P R[0]))))
    R[10]

/-- KEYEXP (R154): `RK` and `KEYVALID`. -/
def execKeyexp (s : State) : Host.Outcome State Fault Refusal :=
  runCommand (encode .keyexp) none
    { s with rk := keyExpansion s.key, status := { s.status with keyValid := true } } s

/-- ENCRYPT (R156). -/
def execEncrypt (s : State) : Host.Outcome State Fault Refusal :=
  runCommand (encode .encrypt) (keyCheck s) { s with st := cipher s.st s.rk } s

end Sys2Proof.Machine
end

