-- ==== Sys2Proof/Machine/Control.lean ====
section
/-! DEFINITION. The control command (spec/44_control.md). -/

namespace Sys2Proof.Machine

/-- NOP (R190): no check, and no data register changes. -/
def execNop (s : State) : Host.Outcome State Fault Refusal :=
  runCommand (encode .nop) none s s

end Sys2Proof.Machine
end

