-- ==== Sys2Proof/Machine/ModExp.lean ====
section
/-! DEFINITION. The modular-exponentiation engine, MODPOW and RSAENC (spec/43_modexp.md). -/

namespace Sys2Proof.Machine

/-- `ModPow(b, e, m) = (b^e) mod m` over the natural numbers (R170). -/
def modPowSpec (b e m : Nat) : Nat := b ^ e % m

/-- `(x * y) mod m` with a 64-bit product and a 64-bit dividend (R171, R172). -/
def mulMod (x y m : Word) : Word :=
  ((x.zeroExtend 64 * y.zeroExtend 64) % m.zeroExtend 64).truncate 32

/-- At most `k` passes of the square-and-multiply loop on `r`, `x`, `e`, least significant exponent bit first (R171). -/
def modpowLoop (m : Word) : Nat → Word → Word → Word → Word
  | 0, r, _, _ => r
  | k + 1, r, x, e =>
    if e = 0 then r
    else modpowLoop m k (if e.getLsbD 0 then mulMod r x m else r) (mulMod x x m) (e >>> 1)

/-- The binary method (R171): at most 32 passes from `r = 1 mod m`, `x = b mod m`. -/
def modpow (b e m : Word) : Word := modpowLoop m 32 (1 % m) (b % m) e

/-- The value MODPOW and RSAENC store. `ModPow` is not defined for `m = 0` (R170); R97 keeps a command from starting
with it, so the free value there is never stored in a reachable state (log entry 3). -/
def modpowResult (s : State) : Word :=
  if s.mpm = 0 then Config.modulusZero s.mpb s.mpe else modpow s.mpb s.mpe s.mpm

/-- MODPOW (R174). -/
def execModpow (s : State) : Host.Outcome State Fault Refusal :=
  runCommand (encode .modpow) (modulusCheck s) { s with mpr := modpowResult s } s

/-- RSAENC (R175): the range check, then the same power. -/
def execRsaenc (s : State) : Host.Outcome State Fault Refusal :=
  runCommand (encode .rsaenc) (rangeCheck s) { s with mpr := modpowResult s } s

end Sys2Proof.Machine
end

