-- ==== Sys2Proof/Machine/Dispatch.lean ====
section
/-! DEFINITION. One arm per command. -/

namespace Sys2Proof.Machine

def exec (i : Instr) (s : State) : Host.Outcome State Fault Refusal :=
  match i with
  | .nop => Sys2Proof.Machine.execNop s
  | .subbytes => Sys2Proof.Machine.execSubbytes s
  | .shiftrows => Sys2Proof.Machine.execShiftrows s
  | .mixcolumns => Sys2Proof.Machine.execMixcolumns s
  | .addroundkey r => Sys2Proof.Machine.execAddroundkey r s
  | .keyexp => Sys2Proof.Machine.execKeyexp s
  | .encrypt => Sys2Proof.Machine.execEncrypt s
  | .gfmul => Sys2Proof.Machine.execGfmul s
  | .modpow => Sys2Proof.Machine.execModpow s
  | .rsaenc => Sys2Proof.Machine.execRsaenc s

end Sys2Proof.Machine
end

