-- ==== Sys2Proof/Machine/Bus.lean ====
section
/-! DEFINITION. Running a command word, the host's writes, the core's completion, and one event
(spec/20_memory.md R63, R67, R68; spec/30_encoding.md R97, R98; spec/70_reset_and_hazards.md R240, R243, R254). -/

namespace Sys2Proof.Machine

/-- Decode a command word and take the due step of its command (R94, R97, R98). -/
def runWord (w : Word) (s : State) : Host.Outcome State Fault Refusal :=
  match decode w with
  | .ok i => exec i s
  | .error _ => illegalCommand w s

/-- A write of `w` to `CMD` while `BUSY`=0: ignored, and not decoded, while `ERRF`=1 (R97, R205). -/
def commandWrite (w : Word) (s : State) : Host.Outcome State Fault Refusal :=
  if s.status.errf then .next s else runWord w s

/-- An admitted write of `v` to a target while `BUSY`=0 (R67). -/
def idleWrite (t : Target) (v : Word) (s : State) : Host.Outcome State Fault Refusal :=
  if t = .cmd then commandWrite v s else .next (writeTarget t v s)

/-- `MemWrite(off, n, v)`: admission first (R63), then, while `BUSY`=1, dropped (R68), else by target (R67). -/
def busWrite (off : Offset) (n : Nat) (v : Word) (s : State) : Host.Outcome State Fault Refusal :=
  if admitted off n then
    if s.status.busy then .next (reply .ok (dropWrite s))
    else idleWrite (targetAt off) v (reply .ok s)
  else .next (reply .busError s)

/-- The core's turn: the completion of the command in flight, enabled exactly while `BUSY`=1 (R98); otherwise the core
has no step and nothing changes (R243). -/
def coreTurn (s : State) : Host.Outcome State Fault Refusal :=
  if s.status.busy then runWord s.ifc s else .next s

/-- One event. -/
def handle (e : Event) (s : State) : Host.Outcome State Fault Refusal :=
  match e with
  | .read off n => .next (busRead off n s)
  | .write off n v => busWrite off n v s
  | .complete => coreTurn s
  | .reset => .next (resetBlock s)

/-- What happens next: the oldest event of the list; when nothing is listed, the core gets its turn (R254). -/
def nextEvent (s : State) : Event := s.inbox.headD .complete

/-- The state once that event has been taken from the list. -/
def takeEvent (s : State) : State := { s with inbox := s.inbox.tail }

/-- The host writes `w` to `CMD` next, and the port is open: no command in flight and no error standing, so that the
write is decoded (R97). Used by `State.withFetchWord` alone (log entry 9). -/
def placeCommand (w : Word) (s : State) : State :=
  { s with
    status := { s.status with busy := false, errf := false, ecode := 0 }
    ecmd := 0
    inbox := .write 0x00 4 w :: s.inbox }

end Sys2Proof.Machine
end

