-- ==== Sys2Proof/Machine/Step.lean ====
section
/-! DEFINITION. One step of the machine: one atomic step of the host, the core or the environment
(spec/20_memory.md R73). -/

namespace Sys2Proof.Machine

/-- One step (R73): the next event, on the state from whose list it has been taken. -/
def step (s : State) : Host.Outcome State Fault Refusal :=
  Sys2Proof.Machine.handle (Sys2Proof.Machine.nextEvent s) (Sys2Proof.Machine.takeEvent s)

/-- `s` with the command word whose low `nbits` bits are `w` as the host's very next write to `CMD` (log entry 9). -/
def State.withFetchWord (s : State) (nbits w : Nat) : State :=
  Sys2Proof.Machine.placeCommand (Sys2Proof.tableWord nbits w) s

end Sys2Proof.Machine
end

