-- ==== Sys2Proof/Safety.lean ====
section
/-! DEFINITION. What claims about whole runs use: the preconditions of R97 as a table, the invariants of R43, and the
register an agent of the spec can see. -/

namespace Sys2Proof.Machine

/-- The table of R93: the 20 legal command words, and the command each selects. -/
def legalWords : List (Word × Instr) :=
  [(0x00000000, .nop), (0x00000001, .subbytes), (0x00000002, .shiftrows), (0x00000003, .mixcolumns),
   (0x00000005, .keyexp), (0x00000006, .encrypt), (0x00000010, .gfmul), (0x00000020, .modpow),
   (0x00000021, .rsaenc)] ++
  [(0x00000004, .addroundkey 0), (0x00000104, .addroundkey 1), (0x00000204, .addroundkey 2),
   (0x00000304, .addroundkey 3), (0x00000404, .addroundkey 4), (0x00000504, .addroundkey 5),
   (0x00000604, .addroundkey 6), (0x00000704, .addroundkey 7), (0x00000804, .addroundkey 8),
   (0x00000904, .addroundkey 9), (0x00000A04, .addroundkey 10)]

/-- The code a well-formed command's issue would raise, by the table of R97 (none: it may start). Claims are stated with
it; the meanings do not call it. -/
def preconditionFailure (i : Instr) (s : State) : Option ErrCode :=
  match i with
  | .nop => none
  | .subbytes => none
  | .shiftrows => none
  | .mixcolumns => none
  | .addroundkey _ => if s.status.keyValid = true then none else some .noKey
  | .keyexp => none
  | .encrypt => if s.status.keyValid = true then none else some .noKey
  | .gfmul => none
  | .modpow => if s.mpm ≠ 0 then none else some .modZero
  | .rsaenc => if s.mpm ≠ 0 then (if s.mpb.toNat < s.mpm.toNat then none else some .range) else some .modZero

/-- The invariants of R43, (iv) being the width of the fields, and two facts beside them: an error standing means
`DONE`=0 (spec/95_test_vectors.md section 5.2), and `ECODE` values 5 to 15 are never produced (R201). -/
structure Consistent (s : State) : Prop where
  /-- R43 (i). -/
  busyQuiet : s.status.busy = true → s.status.done = false ∧ s.status.errf = false
  /-- R43 (ii), first half. -/
  codeWithError : s.status.errf = false ↔ s.status.ecode = 0
  /-- R43 (ii), second half. -/
  wordWithError : s.status.errf = false → s.ecmd = 0
  /-- R43 (iii). -/
  keysMatch : s.status.keyValid = true → s.rk = keyExpansion s.key
  /-- R43 (v). -/
  inFlight : s.status.busy = true → ∃ i, decode s.ifc = .ok i ∧ preconditionFailure i s = none
  /-- No state has `ERRF`=1 together with `DONE`=1. -/
  errorNotDone : s.status.errf = true → s.status.done = false
  /-- `ECODE` is 0 to 4. -/
  codeRange : s.status.ecode.toNat ≤ 4

/-- A step is safe if it answers a next state: neither a fault nor a refusal. -/
def StepSafe (s : State) : Prop := ∃ t, step s = .next t

/-- Two states show the host the same registers: all the spec's state but the flag `OVR` and the hidden `IFC`. -/
structure SameRegisters (s t : State) : Prop where
  st : t.st = s.st
  key : t.key = s.key
  rk : t.rk = s.rk
  gfa : t.gfa = s.gfa
  gfb : t.gfb = s.gfb
  gfp : t.gfp = s.gfp
  mpb : t.mpb = s.mpb
  mpe : t.mpe = s.mpe
  mpm : t.mpm = s.mpm
  mpr : t.mpr = s.mpr
  ecmd : t.ecmd = s.ecmd
  busy : t.status.busy = s.status.busy
  done : t.status.done = s.status.done
  keyValid : t.status.keyValid = s.status.keyValid
  errf : t.status.errf = s.status.errf
  ecode : t.status.ecode = s.status.ecode

/-- A command in the schedule in which completion follows issue at once (R96). -/
def runAtOnce (i : Instr) (s : State) : Host.Outcome State Fault Refusal :=
  match exec i s with
  | .next t => exec i t
  | .fault r => .fault r
  | .refused r => .refused r

/-- Commands one after another, each completing at once (R96); the scripts of R100 with their waits are other schedules. -/
def runInOrder : List Instr → State → Host.Outcome State Fault Refusal
  | [], s => .next s
  | i :: is, s =>
    match runAtOnce i s with
    | .next t => runInOrder is t
    | .fault r => .fault r
    | .refused r => .refused r

/-- The 40 commands of R157: `run addroundkey 0`, `round 1` to `round 9`, `lastround` (R100). -/
def primitiveCipher : List Instr :=
  [.addroundkey 0]
    ++ [1, 2, 3, 4, 5, 6, 7, 8, 9].flatMap (fun r => [.subbytes, .shiftrows, .mixcolumns, .addroundkey r])
    ++ [.subbytes, .shiftrows, .addroundkey 10]

/-- A host transaction: a read or a write, not a completion or a reset (R62). -/
def Event.isTransaction : Event → Bool
  | .read _ _ => true
  | .write _ _ _ => true
  | .complete => false
  | .reset => false

end Sys2Proof.Machine
end

