-- ==== Sys2Proof/Certificates/Slice0/Obligations.lean ====
section
/-! DEFINITION. The statements about the model, each with the rule or section of spec/ it comes from. -/

open Sys2Proof Sys2Proof.Machine

/-! ## Decoding and encoding -/

/-- O1. A word decodes to a command exactly when the command is well-formed and encodes to that word: no bit of a word is
dropped, and every index 0..10 comes back (30_encoding.md sections 1 to 4). -/
def Obligations.DecodeInvertsEncode : Prop :=
  ∀ (w : Word) (i : Instr), decode w = .ok i ↔ i.wellFormed = true ∧ encode i = w

/-- O2. The words that decode, and what they decode to, are the 20 of R93; every other word is illegal (R93, R94). -/
def Obligations.LegalWordsAreTheTwenty : Prop :=
  ∀ (w : Word) (i : Instr), decode w = .ok i ↔ (w, i) ∈ legalWords

/-- O3. Some words written out bit by bit from R91 and R93 decode to what they stand for, and a neighbour of each kind of
illegal word is rejected by name (R95). -/
def Obligations.WrittenWordsDecode : Prop :=
  decode 0b00000000000000000000_0000_00000000 = .ok .nop ∧
  decode 0b00000000000000000000_0000_00000010 = .ok .shiftrows ∧
  decode 0b00000000000000000000_1010_00000100 = .ok (.addroundkey 10) ∧
  decode 0b00000000000000000000_0000_00000110 = .ok .encrypt ∧
  decode 0b00000000000000000000_0000_00010000 = .ok .gfmul ∧
  decode 0b00000000000000000000_0000_00100001 = .ok .rsaenc ∧
  decode 0b00000000000000000001_0000_00000100 = .error .zeroFieldSet ∧
  decode 0b00000000000000000000_1011_00000100 = .error .roundKeyIndexTooLarge ∧
  decode 0b00000000000000000000_0001_00010000 = .error .selectorSet ∧
  decode 0b00000000000000000000_0000_00000111 = .error .unassignedOpcode

/-- O4. An illegal word written to `CMD` raises ERR_ILLEGAL and does nothing else (R95). The kinds of illegal word are
those R95 lists. -/
def Obligations.IllegalWordRaisesError : Prop :=
  ∀ (s : State) (v : Word) (rest : List Event),
    s.inbox = .write 0x00 4 v :: rest → s.status.busy = false → s.status.errf = false →
    (v.extractLsb' 12 20 ≠ 0 ∨
      (v.extractLsb' 0 8 = 0x04 ∧ 11 ≤ (v.extractLsb' 8 4).toNat) ∨
      (v.extractLsb' 0 8 ≠ 0x04 ∧ v.extractLsb' 8 4 ≠ 0) ∨
      v.extractLsb' 0 8 ∉
        ([0x00, 0x01, 0x02, 0x03, 0x04, 0x05, 0x06, 0x10, 0x20, 0x21] : List Byte)) →
    step s = .next
      { s with
        inbox := rest
        replies := .ok :: s.replies
        ecmd := v
        status := { s.status with done := false, errf := true, ecode := 1 } }

/-! ## A step runs the decoded command -/

/-- O5. A `CMD` write that is accepted for decoding runs the decoded command on the state from which the write has been
taken and to which its `Ok` has been returned (30_encoding.md section 5). -/
def Obligations.CommandWriteRunsDecodedCommand : Prop :=
  ∀ (s : State) (v : Word) (i : Instr) (rest : List Event),
    s.inbox = .write 0x00 4 v :: rest → s.status.busy = false → s.status.errf = false →
    decode v = .ok i →
    step s = exec i { s with inbox := rest, replies := .ok :: s.replies }

/-- O6. The core's turn runs the command in flight: when nothing else is listed, or where the list says the completion
falls (30_encoding.md section 5). That an empty list is the core's turn is the model's choice (log entry 5). -/
def Obligations.CompletionRunsCommandInFlight : Prop :=
  ∀ (s : State) (i : Instr), s.status.busy = true → decode s.ifc = .ok i →
    (s.inbox = [] → step s = exec i s) ∧
    (∀ rest, s.inbox = .complete :: rest → step s = exec i { s with inbox := rest })

/-- O7. The very next step of `s.withFetchWord nbits w` runs the command those bits decode to, with the command port open
(log entry 9). -/
def Obligations.PlacedWordRunsNext : Prop :=
  ∀ (s : State) (nbits w : Nat) (i : Instr), decodeTableWord nbits w = some i →
    step (s.withFetchWord nbits w) = exec i
      { s with
        status := { s.status with busy := false, errf := false, ecode := 0 }
        ecmd := 0
        replies := .ok :: s.replies }

/-! ## The bus -/

/-- O8. Admission (R63): a transaction with another size than 4, or a misaligned one, returns `BusError` and changes
nothing, whatever `BUSY` is; an aligned word access never returns `BusError`. -/
def Obligations.UnadmittedAccessChangesNothing : Prop :=
  ∀ (s : State) (e : Event) (rest : List Event) (off : Offset) (n : Nat) (v : Word),
    e = .read off n ∨ e = .write off n v → s.inbox = e :: rest →
    (¬ (n = 4 ∧ off.toNat % 4 = 0) →
      step s = .next { s with inbox := rest, replies := .busError :: s.replies }) ∧
    (n = 4 ∧ off.toNat % 4 = 0 →
      ∀ t, step s = .next t → t.replies.head? ≠ some .busError)

/-- O9. An admitted read while `BUSY`=0 returns the exact word at the offset and changes nothing (R64). The clauses are
the rows of the register map R61. -/
def Obligations.IdleReadReturnsRegister : Prop :=
  ∀ (s : State) (off : Offset) (rest : List Event),
    s.inbox = .read off 4 :: rest → s.status.busy = false → off.toNat % 4 = 0 →
    ∃ v : Word, step s = .next { s with inbox := rest, replies := .value v :: s.replies } ∧
      (off = 0x00 → v = 0) ∧
      (off = 0x04 → v = statusWord s.status) ∧
      (off = 0x08 → v = s.ecmd) ∧
      (off = 0x0C ∨ off = 0x3C → v = 0) ∧
      (∀ k : Fin 4, off.toNat = 0x10 + 4 * k.val →
        v = littleEndianWord s.st[4 * k.val] s.st[4 * k.val + 1] s.st[4 * k.val + 2] s.st[4 * k.val + 3]) ∧
      (∀ k : Fin 4, off.toNat = 0x20 + 4 * k.val →
        v = littleEndianWord s.key[4 * k.val] s.key[4 * k.val + 1] s.key[4 * k.val + 2] s.key[4 * k.val + 3]) ∧
      (off = 0x30 → v.toNat = s.gfa.toNat) ∧
      (off = 0x34 → v.toNat = s.gfb.toNat) ∧
      (off = 0x38 → v.toNat = s.gfp.toNat) ∧
      (off = 0x40 → v = s.mpb) ∧
      (off = 0x44 → v = s.mpe) ∧
      (off = 0x48 → v = s.mpm) ∧
      (off = 0x4C → v = s.mpr) ∧
      (∀ (r : Fin 11) (c : Fin 4), off.toNat = 0x50 + 16 * r.val + 4 * c.val →
        v = littleEndianWord s.rk[r][4 * c.val] s.rk[r][4 * c.val + 1] s.rk[r][4 * c.val + 2] s.rk[r][4 * c.val + 3])

/-- O10. The fields of the word of `STATUS`, with its reserved bits 0 (R31's table, R38). -/
def Obligations.StatusWordFields : Prop :=
  ∀ f : Status,
    (statusWord f).getLsbD 0 = f.busy ∧ (statusWord f).getLsbD 1 = f.done ∧ (statusWord f).getLsbD 2 = f.keyValid ∧
    (statusWord f).getLsbD 3 = f.errf ∧ (statusWord f).getLsbD 4 = f.ovr ∧
    (statusWord f).extractLsb' 5 3 = 0 ∧ (statusWord f).extractLsb' 8 4 = f.ecode ∧
    (statusWord f).extractLsb' 12 20 = 0

/-- O11. An admitted read while `BUSY`=1 changes no register; `CMD` and the reserved words read 0, `STATUS` and `ECMD`
read exactly (with `BUSY`=1, `DONE`=0, `ERRF`=0 in a consistent state), and any other word reads as some value (R65). -/
def Obligations.BusyReadExactForControlWords : Prop :=
  ∀ (s : State) (off : Offset) (rest : List Event),
    s.inbox = .read off 4 :: rest → s.status.busy = true → off.toNat % 4 = 0 →
    ∃ (v : Word) (d : Nat), step s = .next { s with inbox := rest, replies := .value v :: s.replies, draws := d } ∧
      (off = 0x00 ∨ off = 0x0C ∨ off = 0x3C → v = 0) ∧
      (off = 0x04 → v = statusWord s.status) ∧
      (off = 0x08 → v = s.ecmd) ∧
      (Consistent s → off = 0x04 → v.getLsbD 0 = true ∧ v.getLsbD 1 = false ∧ v.getLsbD 3 = false)

/-- O12. Every data-register read while `BUSY`=1 is a fresh draw: it returns the free value at the count of draws and
moves the count on. The form of the free value is the model's (log entry 2); 20_memory.md section 2. -/
def Obligations.BusyDataReadIsFreshDraw : Prop :=
  ∀ (s : State) (off : Offset) (rest : List Event),
    s.inbox = .read off 4 :: rest → s.status.busy = true → off.toNat % 4 = 0 → 0x10 ≤ off.toNat → off ≠ 0x3C →
    step s = .next
      { s with inbox := rest, replies := .value (Config.busyRead s.draws) :: s.replies, draws := s.draws + 1 }

/-- O13. An admitted write while `BUSY`=1, to any offset, is dropped, changes no register, sets `OVR` and returns `Ok`
(R68). -/
def Obligations.BusyWriteIsDropped : Prop :=
  ∀ (s : State) (off : Offset) (v : Word) (rest : List Event),
    s.inbox = .write off 4 v :: rest → s.status.busy = true → off.toNat % 4 = 0 →
    step s = .next
      { s with inbox := rest, replies := .ok :: s.replies, status := { s.status with ovr := true } }

/-- O14. An admitted write while `BUSY`=0, by target (R67): the read-only and reserved words ignore it, `ST` and `KEY` take
the four bytes of R66, `GFA` and `GFB` keep bits [7:0], `MPB`, `MPE`, `MPM` the whole word, `CMD` issues and `STATUS` clears
flags; nothing else changes. It holds while `ERRF`=1 too. -/
def Obligations.IdleWriteByTarget : Prop :=
  ∀ (s s₀ : State) (off : Offset) (v : Word) (rest : List Event),
    s.inbox = .write off 4 v :: rest → s.status.busy = false → off.toNat % 4 = 0 →
    s₀ = { s with inbox := rest, replies := .ok :: s.replies } →
      (off = 0x00 → step s = commandWrite v s₀) ∧
      (off = 0x04 → step s = .next (writeStatus v s₀)) ∧
      (off = 0x08 ∨ off = 0x0C ∨ off = 0x38 ∨ off = 0x3C ∨ off = 0x4C ∨ 0x50 ≤ off.toNat → step s = .next s₀) ∧
      (∀ k : Fin 4, off.toNat = 0x10 + 4 * k.val →
        ∃ A : Block, step s = .next { s₀ with st := A } ∧
          (∀ j : Fin 4, A[4 * k.val + j.val] = v.extractLsb' (8 * j.val) 8) ∧
          (∀ i : Fin 16, i.val / 4 ≠ k.val → A[i] = s.st[i])) ∧
      (∀ k : Fin 4, off.toNat = 0x20 + 4 * k.val →
        ∃ A : Block, step s = .next { s₀ with key := A, status := { s.status with keyValid := false } } ∧
          (∀ j : Fin 4, A[4 * k.val + j.val] = v.extractLsb' (8 * j.val) 8) ∧
          (∀ i : Fin 16, i.val / 4 ≠ k.val → A[i] = s.key[i])) ∧
      (off = 0x30 → step s = .next { s₀ with gfa := v.extractLsb' 0 8 }) ∧
      (off = 0x34 → step s = .next { s₀ with gfb := v.extractLsb' 0 8 }) ∧
      (off = 0x40 → step s = .next { s₀ with mpb := v }) ∧
      (off = 0x44 → step s = .next { s₀ with mpe := v }) ∧
      (off = 0x48 → step s = .next { s₀ with mpm := v })

/-- O15. A write of `v` to `STATUS` while `BUSY`=0 clears `DONE` by bit 1, `ERRF`, `ECODE`, `ECMD` by bit 3, `OVR` by bit 4,
independently, and writes nothing else (R70). -/
def Obligations.StatusWriteClearsChosenFlags : Prop :=
  ∀ (s : State) (v : Word) (rest : List Event),
    s.inbox = .write 0x04 4 v :: rest → s.status.busy = false →
    step s = .next
      { s with
        inbox := rest
        replies := .ok :: s.replies
        ecmd := if v.getLsbD 3 then 0 else s.ecmd
        status :=
          { busy := false
            done := if v.getLsbD 1 then false else s.status.done
            keyValid := s.status.keyValid
            errf := if v.getLsbD 3 then false else s.status.errf
            ovr := if v.getLsbD 4 then false else s.status.ovr
            ecode := if v.getLsbD 3 then 0 else s.status.ecode } }

/-- O16. A write to any word of `KEY` while `BUSY`=0 clears `KEYVALID`, whatever the value; `RK` keeps its bytes and stays
readable. From then on only a completion of KEYEXP sets `KEYVALID`, and while it is 0 ADDROUNDKEY and ENCRYPT are refused
(R69). -/
def Obligations.KeyWriteInvalidatesRoundKeys : Prop :=
  (∀ (s : State) (off : Offset) (v : Word) (rest : List Event),
    s.inbox = .write off 4 v :: rest → s.status.busy = false → off.toNat % 4 = 0 →
    0x20 ≤ off.toNat → off.toNat < 0x30 →
    ∃ t, step s = .next t ∧ t.status.keyValid = false ∧ t.rk = s.rk ∧
      ∀ r c, readTarget (.rk r c) t = readTarget (.rk r c) s) ∧
  (∀ s t : State, step s = .next t → s.status.keyValid = false → t.status.keyValid = true →
    s.status.busy = true ∧ nextEvent s = .complete ∧ decode s.ifc = .ok .keyexp) ∧
  (∀ (s : State) (i : Instr), s.status.keyValid = false → s.status.busy = false → s.status.errf = false →
    i = .encrypt ∨ (∃ r, i = .addroundkey r ∧ r.toNat ≤ 10) →
    exec i s = .next
      { s with
        ecmd := encode i
        status := { s.status with done := false, errf := true, ecode := 2 } })

/-- O17. What is written to a word of `ST` or `KEY` or to `MPB`, `MPE`, `MPM` while `BUSY`=0 is read back by the next
transaction; `GFA` and `GFB` give back bits [7:0] (95_test_vectors.md section 7, 20_memory.md sections 2 to 4). -/
def Obligations.WrittenWordReadsBack : Prop :=
  ∀ (s : State) (off : Offset) (v : Word) (rest : List Event),
    s.inbox = .write off 4 v :: .read off 4 :: rest → s.status.busy = false → off.toNat % 4 = 0 →
    ∃ t u, step s = .next t ∧ step t = .next u ∧ u.inbox = rest ∧
      ((0x10 ≤ off.toNat ∧ off.toNat < 0x30) ∨ (0x40 ≤ off.toNat ∧ off.toNat < 0x4C) →
        u.replies = .value v :: .ok :: s.replies) ∧
      (off = 0x30 ∨ off = 0x34 → u.replies = .value ((v.extractLsb' 0 8).zeroExtend 32) :: .ok :: s.replies)

/-- O18. The packing of byte arrays, both ways, and the worked example (20_memory.md section 3). -/
def Obligations.PackingIsLittleEndian : Prop :=
  (∀ (A : Block) (k : Fin 4),
    packColumn A k = littleEndianWord A[4 * k.val] A[4 * k.val + 1] A[4 * k.val + 2] A[4 * k.val + 3] ∧
    ∀ j : Fin 4, (packColumn A k).extractLsb' (8 * j.val) 8 = A[4 * k.val + j.val]) ∧
  (∀ (A : Block) (k : Fin 4) (v : Word),
    (∀ j : Fin 4, (setColumn A k v)[4 * k.val + j.val] = v.extractLsb' (8 * j.val) 8) ∧
    (∀ i : Fin 16, i.val / 4 ≠ k.val → (setColumn A k v)[i] = A[i])) ∧
  (List.ofFn fun k : Fin 4 => packColumn (hexBlock 0x3243f6a8885a308d313198a2e0370734) k) =
    [0xA8F64332, 0x8D305A88, 0xA2983131, 0x340737E0]

/-! ## Issue, errors, reset -/

/-- O19. The issue rule, whole: a write of `w` to `CMD` (R97). `preconditionFailure` is R97's table. -/
def Obligations.IssueFollowsTheRule : Prop :=
  ∀ (s s₀ : State) (w : Word) (rest : List Event),
    s.inbox = .write 0x00 4 w :: rest →
    s₀ = { s with inbox := rest, replies := .ok :: s.replies } →
    step s =
      if s.status.busy = true then .next { s₀ with status := { s.status with ovr := true } }
      else if s.status.errf = true then .next s₀
      else
        match decode w with
        | .error _ =>
          .next { s₀ with ecmd := w, status := { s.status with done := false, errf := true, ecode := 1 } }
        | .ok i =>
          match preconditionFailure i s with
          | some code =>
            .next { s₀ with ecmd := w, status := { s.status with done := false, errf := true, ecode := code.bits } }
          | none => .next { s₀ with ifc := w, status := { s.status with done := false, busy := true } }

/-- O20. Progress (R254): from a consistent state with a command in flight, whatever is listed, some step within one more
than the length of the list leaves `BUSY`=0: the core gets its turn at the latest when the list is used up, the model's
form of weak fairness (log entry 5; 70_reset_and_hazards.md section 3). -/
def Obligations.CommandInFlightEnds : Prop :=
  ∀ s : State, Consistent s → s.status.busy = true →
    ∃ (k : Nat) (t : State), k ≤ s.inbox.length + 1 ∧ Host.Core.run core k s = .next t ∧ t.status.busy = false

/-- O21. The completion step: `BUSY <- 0`, `DONE <- 1`; it raises no error, so `ERRF`, `ECODE` and `ECMD` stay, and so do
`OVR` and `IFC`. It is enabled only while `BUSY`=1: otherwise the core's turn changes nothing (log entry 6; 30_encoding.md section 5,
70_reset_and_hazards.md section 2). -/
def Obligations.CompletionClearsBusyAndSetsDone : Prop :=
  ∀ (s : State) (rest : List Event), s.inbox = .complete :: rest →
    (s.status.busy = false → step s = .next { s with inbox := rest }) ∧
    (s.status.busy = true → ∀ i, decode s.ifc = .ok i →
      ∃ t, step s = .next t ∧ t.status.busy = false ∧ t.status.done = true ∧ t.status.errf = s.status.errf ∧
        t.status.ecode = s.status.ecode ∧ t.status.ovr = s.status.ovr ∧ t.ecmd = s.ecmd ∧ t.ifc = s.ifc ∧
        t.inbox = rest ∧ t.replies = s.replies ∧ t.draws = s.draws)

/-- O22. Without a valid key set ADDROUNDKEY r and ENCRYPT raise ERR_NOKEY and change no data register
(41_aes_transforms.md section 4, 42_aes_keyexp_cipher.md section 2, 60_exceptions.md section 1). -/
def Obligations.KeyCommandsNeedKeyValid : Prop :=
  ∀ s : State, s.status.busy = false → s.status.errf = false → s.status.keyValid = false →
    (∀ r : BitVec 4, r.toNat ≤ 10 → exec (.addroundkey r) s = .next
      { s with
        ecmd := 0x00000004 ||| (r.zeroExtend 32 <<< 8)
        status := { s.status with done := false, errf := true, ecode := 2 } }) ∧
    exec .encrypt s = .next
      { s with ecmd := 0x00000006, status := { s.status with done := false, errf := true, ecode := 2 } }

/-- O23. MODPOW and RSAENC refuse a zero modulus with ERR_MODZERO, RSAENC before its range check; RSAENC refuses
`MPB` ≥ `MPM` ≠ 0 with ERR_RANGE; no data register changes (43_modexp.md section 2, 60_exceptions.md section 1). -/
def Obligations.ModularCommandsCheckOperands : Prop :=
  ∀ s : State, s.status.busy = false → s.status.errf = false →
    (s.mpm = 0 →
      exec .modpow s = .next
        { s with ecmd := 0x00000020, status := { s.status with done := false, errf := true, ecode := 3 } } ∧
      exec .rsaenc s = .next
        { s with ecmd := 0x00000021, status := { s.status with done := false, errf := true, ecode := 3 } }) ∧
    (s.mpm ≠ 0 → s.mpm.toNat ≤ s.mpb.toNat →
      exec .rsaenc s = .next
        { s with ecmd := 0x00000021, status := { s.status with done := false, errf := true, ecode := 4 } })

/-- O24. The error state (R205): while `ERRF`=1 a `CMD` write changes no state, whatever the word; reads are exact; writes
to every other offset work as usual. `BUSY`=0 in it, as the invariants say (`StepKeepsConsistent`). -/
def Obligations.ErrorStateIgnoresCommands : Prop :=
  ∀ (s : State) (off : Offset) (v : Word) (rest : List Event),
    s.status.errf = true → s.status.busy = false → off.toNat % 4 = 0 →
    (s.inbox = .write 0x00 4 v :: rest →
      step s = .next { s with inbox := rest, replies := .ok :: s.replies }) ∧
    (s.inbox = .read off 4 :: rest →
      step s = .next { s with inbox := rest, replies := .value (readTarget (targetAt off) s) :: s.replies }) ∧
    (s.inbox = .write off 4 v :: rest → off ≠ 0x00 →
      step s = .next
        (writeTarget (targetAt off) v { s with inbox := rest, replies := .ok :: s.replies }))

/-- O25. Error return (R206): a `STATUS` write with bit 3 set clears `ERRF`, `ECODE` and `ECMD`, restores nothing else and
starts nothing; reset clears the error too. -/
def Obligations.ErrorReturnClearsTheError : Prop :=
  ∀ (s : State) (rest : List Event),
    (s.inbox = .write 0x04 4 0x00000008 :: rest → s.status.busy = false →
      step s = .next
        { s with
          inbox := rest
          replies := .ok :: s.replies
          ecmd := 0
          status := { s.status with errf := false, ecode := 0 } }) ∧
    (∀ v, s.inbox = .write 0x04 4 v :: rest → s.status.busy = false → v.getLsbD 3 = true →
      ∃ t, step s = .next t ∧ t.status.errf = false ∧ t.status.ecode = 0 ∧ t.ecmd = 0 ∧ t.status.busy = false ∧
        t.ifc = s.ifc ∧ t.st = s.st ∧ t.mpr = s.mpr) ∧
    (s.inbox = .reset :: rest →
      ∃ t, step s = .next t ∧ t.status.errf = false ∧ t.status.ecode = 0 ∧ t.ecmd = 0)

/-- O26. Reset, in any state, gives every piece of state the value of R50's table (`IFC` is left out: R50 gives it none);
a command in flight is dropped, `DONE` being 0 afterwards (R240). -/
def Obligations.ResetEventClearsEverything : Prop :=
  ∀ (s : State) (rest : List Event), s.inbox = .reset :: rest →
    ∃ t, step s = .next t ∧ t.inbox = rest ∧
      (∀ i : Fin 16, t.st[i] = 0 ∧ t.key[i] = 0) ∧ (∀ (r : Fin 11) (i : Fin 16), t.rk[r][i] = 0) ∧
      t.gfa = 0 ∧ t.gfb = 0 ∧ t.gfp = 0 ∧ t.mpb = 0 ∧ t.mpe = 0 ∧ t.mpm = 0 ∧ t.mpr = 0 ∧
      t.status.busy = false ∧ t.status.done = false ∧ t.status.keyValid = false ∧ t.status.errf = false ∧
      t.status.ovr = false ∧ t.status.ecode = 0 ∧ t.ecmd = 0

/-- O27. The state after reset: the table of R50. -/
def Obligations.ResetStateIsAllZero : Prop :=
  (∀ i : Fin 16, State.reset.st[i] = 0 ∧ State.reset.key[i] = 0) ∧
  (∀ (r : Fin 11) (i : Fin 16), State.reset.rk[r][i] = 0) ∧
  State.reset.gfa = 0 ∧ State.reset.gfb = 0 ∧ State.reset.gfp = 0 ∧ State.reset.mpb = 0 ∧ State.reset.mpe = 0 ∧
  State.reset.mpm = 0 ∧ State.reset.mpr = 0 ∧ State.reset.status.busy = false ∧ State.reset.status.done = false ∧
  State.reset.status.keyValid = false ∧ State.reset.status.errf = false ∧ State.reset.status.ovr = false ∧
  State.reset.status.ecode = 0 ∧ State.reset.ecmd = 0

/-! ## What each command computes -/

/-- O28. NOP (R190): word 0; issue sets `BUSY` and clears `DONE`; completion changes no data register, `DONE <- 1`,
`BUSY <- 0`; refused while `ERRF`=1, dropped while `BUSY`=1; afterwards `STATUS` shows `DONE` (and `KEYVALID`) with all else
as before but the hidden `IFC`, the run being in the schedule of R96 in which completion follows issue at once. -/
def Obligations.NopGoesThroughIssueAndCompletion : Prop :=
  decode 0x00000000 = .ok .nop ∧
  ∀ s : State,
    (s.status.busy = false → s.status.errf = false →
      exec .nop s = .next { s with ifc := 0, status := { s.status with busy := true, done := false } }) ∧
    (s.status.busy = true →
      exec .nop s = .next { s with status := { s.status with busy := false, done := true } }) ∧
    (s.status.busy = false → s.status.errf = true → exec .nop s = .next s) ∧
    (∀ rest, s.status.busy = true → s.inbox = .write 0x00 4 0 :: rest →
      step s = .next
        { s with inbox := rest, replies := .ok :: s.replies, status := { s.status with ovr := true } }) ∧
    (s.status.busy = false → s.status.errf = false → s.status.ovr = false → s.status.ecode = 0 →
      ∃ t, runAtOnce .nop s = .next t ∧
        t = { s with ifc := 0, status := { s.status with busy := false, done := true } } ∧
        statusWord t.status = if s.status.keyValid = true then 0x00000006 else 0x00000002)

/-- O29. SUBBYTES replaces each byte of `ST` by its S-box entry (R131), and completes. -/
def Obligations.SubbytesSubstitutesEachByte : Prop :=
  ∀ s : State, s.status.busy = true →
    ∃ A : Block,
      exec .subbytes s = .next { s with st := A, status := { s.status with busy := false, done := true } } ∧
      ∀ i : Fin 16, A[i] = sbox s.st[i]

/-- O30. The S-box: the formula of R130 gives every entry, with `b` the inverse of `x`, or 0 for 0; it is a permutation;
the four entries R130 names. -/
def Obligations.SboxFollowsItsFormula : Prop :=
  (∀ x : Byte, ∃ b : Byte, (x = 0 → b = 0) ∧ (x ≠ 0 → gfmulDef x b = 1) ∧
    sbox x = b ^^^ b.rotateLeft 1 ^^^ b.rotateLeft 2 ^^^ b.rotateLeft 3 ^^^ b.rotateLeft 4 ^^^ 0x63) ∧
  (∀ x y : Byte, sbox x = sbox y → x = y) ∧
  sbox 0x00 = 0x63 ∧ sbox 0x19 = 0xD4 ∧ sbox 0x53 = 0xED ∧ sbox 0xFF = 0x16

/-- O31. SHIFTROWS rotates row `r` left by `r`, as the formula of R133 and as its table of flat indices, and completes. -/
def Obligations.ShiftrowsRotatesRowsLeft : Prop :=
  ∀ s : State, s.status.busy = true →
    ∃ A : Block,
      exec .shiftrows s = .next { s with st := A, status := { s.status with busy := false, done := true } } ∧
      (∀ r c : Fin 4, A[r.val + 4 * c.val] = s.st[r.val + 4 * ((c.val + r.val) % 4)]) ∧
      A = #v[s.st[0], s.st[5], s.st[10], s.st[15], s.st[4], s.st[9], s.st[14], s.st[3],
             s.st[8], s.st[13], s.st[2], s.st[7], s.st[12], s.st[1], s.st[6], s.st[11]]

/-- O32. MIXCOLUMNS multiplies each column by the mix matrix, as the dot product and as the four sums R136 writes out
(the entries of the matrix by R135's rule), and completes. -/
def Obligations.MixcolumnsMultipliesColumns : Prop :=
  ∀ s : State, s.status.busy = true →
    ∃ A : Block,
      exec .mixcolumns s = .next { s with st := A, status := { s.status with busy := false, done := true } } ∧
      (∀ r c : Fin 4, A[r.val + 4 * c.val] =
        (List.ofFn fun k : Fin 4 =>
          gfmul (if k = r then 0x02 else if k.val = (r.val + 1) % 4 then 0x03 else 0x01) s.st[k.val + 4 * c.val]).foldl
          (· ^^^ ·) 0) ∧
      (∀ c : Fin 4,
        A[4 * c.val] = gfmul 2 s.st[4 * c.val] ^^^ gfmul 3 s.st[4 * c.val + 1] ^^^ s.st[4 * c.val + 2] ^^^ s.st[4 * c.val + 3] ∧
        A[4 * c.val + 1] = s.st[4 * c.val] ^^^ gfmul 2 s.st[4 * c.val + 1] ^^^ gfmul 3 s.st[4 * c.val + 2] ^^^ s.st[4 * c.val + 3] ∧
        A[4 * c.val + 2] = s.st[4 * c.val] ^^^ s.st[4 * c.val + 1] ^^^ gfmul 2 s.st[4 * c.val + 2] ^^^ gfmul 3 s.st[4 * c.val + 3] ∧
        A[4 * c.val + 3] = gfmul 3 s.st[4 * c.val] ^^^ s.st[4 * c.val + 1] ^^^ s.st[4 * c.val + 2] ^^^ gfmul 2 s.st[4 * c.val + 3])

/-- O33. ADDROUNDKEY r XORs round key `r` into `ST`, element by element (R138), for every `r` in 0..10, and completes. -/
def Obligations.AddroundkeyXorsRoundKey : Prop :=
  ∀ (s : State) (r : BitVec 4) (h : r.toNat ≤ 10), s.status.busy = true →
    ∃ A : Block,
      exec (.addroundkey r) s = .next { s with st := A, status := { s.status with busy := false, done := true } } ∧
      ∀ i : Fin 16, A[i] = s.st[i] ^^^ (s.rk[r.toNat]'(by omega))[i]

/-- O34. KEYEXP writes all 11 round keys and sets `KEYVALID`, for every key, and completes; `KEY` and `ST` are unchanged
(42_aes_keyexp_cipher.md section 1). -/
def Obligations.KeyexpExpandsTheKey : Prop :=
  ∀ s : State, s.status.busy = true →
    exec .keyexp s = .next
      { s with
        rk := keyExpansion s.key
        status := { s.status with busy := false, done := true, keyValid := true } }

/-- O35. The round constants, and their doubling (R150). -/
def Obligations.RoundConstantsDouble : Prop :=
  [1, 2, 3, 4, 5, 6, 7, 8, 9, 10].map rcon = [0x01, 0x02, 0x04, 0x08, 0x10, 0x20, 0x40, 0x80, 0x1B, 0x36] ∧
  ∀ j : Nat, 1 ≤ j → j ≤ 9 → rcon (j + 1) = gfmul 2 (rcon j)

/-- O36. The 44 words: words 0 to 3 are the key bytes in order; the recurrence for 4 to 43, its transformation rotating,
then substituting, then XORing the constant into byte 0 (R152). -/
def Obligations.KeyScheduleRecurrence : Prop :=
  ∀ K : Block,
    (∀ i j : Fin 4, (keyWord K i.val)[j] = K[4 * i.val + j.val]) ∧
    (∀ i : Nat, 4 ≤ i → i ≤ 43 → ∀ p : KeyWord, p = keyWord K (i - 1) →
      (i % 4 ≠ 0 → ∀ j : Fin 4, (keyWord K i)[j] = (keyWord K (i - 4))[j] ^^^ p[j]) ∧
      (i % 4 = 0 →
        (keyWord K i)[0] = (keyWord K (i - 4))[0] ^^^ (sbox p[1] ^^^ rcon (i / 4)) ∧
        (keyWord K i)[1] = (keyWord K (i - 4))[1] ^^^ sbox p[2] ∧
        (keyWord K i)[2] = (keyWord K (i - 4))[2] ^^^ sbox p[3] ∧
        (keyWord K i)[3] = (keyWord K (i - 4))[3] ^^^ sbox p[0]))

/-- O37. Round key `r` is words `4r` to `4r + 3` (R153), and its consequences: round key 0 is the key, and each later one
depends on the one before only. -/
def Obligations.RoundKeysGroupTheWords : Prop :=
  (∀ (K : Block) (r : Fin 11) (c j : Fin 4),
    (keyExpansion K)[r][4 * c.val + j.val] = (keyWord K (4 * r.val + c.val))[j]) ∧
  (∀ K : Block, (keyExpansion K)[0] = K) ∧
  (∀ (K L : Block) (r : Fin 10), (keyExpansion K)[r.val] = (keyExpansion L)[r.val] →
    (keyExpansion K)[r.val + 1] = (keyExpansion L)[r.val + 1])

/-- O38. ENCRYPT stores the cipher of `ST` under `RK`, and completes; the cipher is the sequence of R155: the initial
AddRoundKey, nine rounds of four transforms, the last round of three. -/
def Obligations.EncryptAppliesTheCipher : Prop :=
  ∀ s : State, s.status.busy = true → ∀ S : Nat → Block,
    S 0 = addRoundKey s.st s.rk[0] →
    (∀ r : Fin 9, S (r.val + 1) = addRoundKey (mixColumns (shiftRows (subBytes (S r.val)))) s.rk[r.val + 1]) →
    exec .encrypt s = .next
      { s with
        st := addRoundKey (shiftRows (subBytes (S 9))) s.rk[10]
        status := { s.status with busy := false, done := true } }

/-- O39. The shift-and-reduce loop computes the field product of the definition, for all 65 536 pairs
(40_gf256.md section 1). -/
def Obligations.GfmulLoopIsTheProduct : Prop := ∀ a b : Byte, gfmul a b = gfmulDef a b

/-- O40. GFMUL (R123): its word; it starts with no precondition; its effect; a malformed word of it is illegal; the corner
cases and the example. -/
def Obligations.GfmulStoresTheProduct : Prop :=
  decode 0x00000010 = .ok .gfmul ∧ decode 0x00000110 = .error .selectorSet ∧
  (∀ s : State, s.status.busy = false → s.status.errf = false →
    exec .gfmul s = .next { s with ifc := 0x00000010, status := { s.status with busy := true, done := false } }) ∧
  (∀ s : State, s.status.busy = true →
    exec .gfmul s = .next
      { s with gfp := gfmul s.gfa s.gfb, status := { s.status with busy := false, done := true } }) ∧
  (∀ a : Byte, gfmul a 0 = 0 ∧ gfmul 0 a = 0 ∧ gfmul a 1 = a) ∧ gfmul 0x57 0x83 = 0xC1

/-- O41. The laws of the field product: commutative, unit, zero, distributive, associative, no zero divisors, and the
products by 2 and 3 (40_gf256.md section 1). -/
def Obligations.GfmulFieldLaws : Prop :=
  (∀ a b : Byte, gfmul a b = gfmul b a) ∧ (∀ a : Byte, gfmul a 1 = a) ∧ (∀ a : Byte, gfmul a 0 = 0) ∧
  (∀ a b c : Byte, gfmul a (b ^^^ c) = gfmul a b ^^^ gfmul a c) ∧
  (∀ a b c : Byte, gfmul (gfmul a b) c = gfmul a (gfmul b c)) ∧
  (∀ a b : Byte, gfmul a b = 0 → a = 0 ∨ b = 0) ∧
  (∀ a : Byte, gfmul a 2 = xtime a ∧ gfmul a 3 = xtime a ^^^ a)

/-- O42. The binary method is exact: for every base and exponent and every modulus but 0 the engine's loop, with its
64-bit products, gives the remainder of the natural-number power (43_modexp.md section 1). -/
def Obligations.ModpowLoopIsExact : Prop :=
  ∀ b e m : Word, m ≠ 0 → (modpow b e m).toNat = b.toNat ^ e.toNat % m.toNat

/-- O43. MODPOW and RSAENC store the modular power, in `[0, m)`, and complete (R170). `MPM` ≠ 0 is what R97 has checked;
RSAENC has checked `MPB` < `MPM` too, and its power needs no more. -/
def Obligations.ModularCommandsStoreThePower : Prop :=
  ∀ s : State, s.status.busy = true → s.mpm ≠ 0 →
    ∃ p : Word, p.toNat = s.mpb.toNat ^ s.mpe.toNat % s.mpm.toNat ∧ p.toNat < s.mpm.toNat ∧
      exec .modpow s = .next { s with mpr := p, status := { s.status with busy := false, done := true } } ∧
      exec .rsaenc s = .next { s with mpr := p, status := { s.status with busy := false, done := true } }

/-- O44. The corner cases of the modular power, as the commands compute it (43_modexp.md section 1, the table of cases). -/
def Obligations.ModpowCornerCases : Prop :=
  (∀ b m : Word, 1 < m.toNat → modpow b 0 m = 1) ∧
  (∀ b e : Word, modpow b e 1 = 0) ∧
  (∀ e m : Word, e ≠ 0 → m ≠ 0 → modpow 0 e m = 0) ∧
  (∀ b e m : Word, m ≠ 0 → modpow b e m = modpow (b % m) e m) ∧
  (∀ b e m : Word, 1 < m.toNat → b % m = 1 → modpow b e m = 1) ∧
  (∀ b m : Word, m ≠ 0 → modpow b 1 m = b % m) ∧
  (∀ e m : Word, 1 < m.toNat → modpow (m - 1) e m = if e.toNat % 2 = 0 then 1 else m - 1)

/-- O45. The RSA round trip: with a valid key set whose modulus fits 32 bits, decrypting an encrypted message gives it
back (43_modexp.md section 2). -/
def Obligations.RsaRoundTrip : Prop :=
  ∀ (p q e d : Nat) (E D N M : Word), p.Prime → q.Prime → p ≠ q →
    e * d % ((p - 1) * (q - 1)) = 1 → N.toNat = p * q → E.toNat = e → D.toNat = d → M.toNat < N.toNat →
    modpow (modpow M E N) D N = M

/-! ## Frames -/

/-- O46. What the commands that write `ST` leave alone, at issue and at completion: every other data register, `KEYVALID`,
`OVR`, the world outside, and the word read at every target that is not `ST`, `STATUS` or `ECMD`. Issue writes no data
register; completion records no error and leaves `IFC` (10_state.md section 2, 60_exceptions.md section 1). -/
def Obligations.StateCommandsFrame : Prop :=
  ∀ (i : Instr) (s t : State),
    i = .subbytes ∨ i = .shiftrows ∨ i = .mixcolumns ∨ i = .encrypt ∨ (∃ r, i = .addroundkey r) →
    exec i s = .next t →
    t.key = s.key ∧ t.rk = s.rk ∧ t.gfa = s.gfa ∧ t.gfb = s.gfb ∧ t.gfp = s.gfp ∧ t.mpb = s.mpb ∧ t.mpe = s.mpe ∧
    t.mpm = s.mpm ∧ t.mpr = s.mpr ∧ t.status.keyValid = s.status.keyValid ∧ t.status.ovr = s.status.ovr ∧
    t.inbox = s.inbox ∧ t.replies = s.replies ∧ t.draws = s.draws ∧
    (∀ a : Target, a ≠ .status → a ≠ .ecmd → (∀ k, a ≠ .st k) → readTarget a t = readTarget a s) ∧
    (s.status.busy = false → t.st = s.st) ∧
    (s.status.busy = true → t.ecmd = s.ecmd ∧ t.ifc = s.ifc ∧ t.status.errf = s.status.errf ∧
      t.status.ecode = s.status.ecode)

/-- O47. What KEYEXP leaves alone: everything but `RK` and `KEYVALID` at completion, and the flags
(42_aes_keyexp_cipher.md section 1, 10_state.md section 2). -/
def Obligations.KeyexpFrame : Prop :=
  ∀ s t : State, exec .keyexp s = .next t →
    t.st = s.st ∧ t.key = s.key ∧ t.gfa = s.gfa ∧ t.gfb = s.gfb ∧ t.gfp = s.gfp ∧ t.mpb = s.mpb ∧ t.mpe = s.mpe ∧
    t.mpm = s.mpm ∧ t.mpr = s.mpr ∧ t.status.ovr = s.status.ovr ∧ t.ecmd = s.ecmd ∧
    t.status.errf = s.status.errf ∧ t.status.ecode = s.status.ecode ∧
    t.inbox = s.inbox ∧ t.replies = s.replies ∧ t.draws = s.draws ∧
    (∀ a : Target, a ≠ .status → (∀ r c, a ≠ .rk r c) → readTarget a t = readTarget a s) ∧
    (s.status.busy = false → t.rk = s.rk ∧ t.status.keyValid = s.status.keyValid) ∧
    (s.status.busy = true → t.ifc = s.ifc)

/-- O48. What GFMUL leaves alone: everything but `GFP` at completion, and the flags (40_gf256.md section 2,
10_state.md section 2). -/
def Obligations.GfmulFrame : Prop :=
  ∀ s t : State, exec .gfmul s = .next t →
    t.st = s.st ∧ t.key = s.key ∧ t.rk = s.rk ∧ t.gfa = s.gfa ∧ t.gfb = s.gfb ∧ t.mpb = s.mpb ∧ t.mpe = s.mpe ∧
    t.mpm = s.mpm ∧ t.mpr = s.mpr ∧ t.status.keyValid = s.status.keyValid ∧ t.status.ovr = s.status.ovr ∧
    t.ecmd = s.ecmd ∧ t.status.errf = s.status.errf ∧ t.status.ecode = s.status.ecode ∧
    t.inbox = s.inbox ∧ t.replies = s.replies ∧ t.draws = s.draws ∧
    (∀ a : Target, a ≠ .status → a ≠ .gfp → readTarget a t = readTarget a s) ∧
    (s.status.busy = false → t.gfp = s.gfp) ∧ (s.status.busy = true → t.ifc = s.ifc)

/-- O49. What MODPOW and RSAENC leave alone: everything but `MPR` at completion, and the flags and, for an error at issue,
`ECMD` (43_modexp.md section 2, 10_state.md section 2). -/
def Obligations.ModularCommandsFrame : Prop :=
  ∀ (i : Instr) (s t : State), i = .modpow ∨ i = .rsaenc → exec i s = .next t →
    t.st = s.st ∧ t.key = s.key ∧ t.rk = s.rk ∧ t.gfa = s.gfa ∧ t.gfb = s.gfb ∧ t.gfp = s.gfp ∧ t.mpb = s.mpb ∧
    t.mpe = s.mpe ∧ t.mpm = s.mpm ∧ t.status.keyValid = s.status.keyValid ∧ t.status.ovr = s.status.ovr ∧
    t.inbox = s.inbox ∧ t.replies = s.replies ∧ t.draws = s.draws ∧
    (∀ a : Target, a ≠ .status → a ≠ .ecmd → a ≠ .mpr → readTarget a t = readTarget a s) ∧
    (s.status.busy = false → t.mpr = s.mpr) ∧
    (s.status.busy = true → t.ecmd = s.ecmd ∧ t.ifc = s.ifc ∧ t.status.errf = s.status.errf ∧
      t.status.ecode = s.status.ecode)

/-- O50. What NOP leaves alone: everything but `BUSY`, `DONE` and, at issue, `IFC` (44_control.md, 10_state.md section 2). -/
def Obligations.NopFrame : Prop :=
  ∀ s t : State, exec .nop s = .next t →
    SameRegisters s { t with status := { t.status with busy := s.status.busy, done := s.status.done } } ∧
    t.status.ovr = s.status.ovr ∧ t.inbox = s.inbox ∧ t.replies = s.replies ∧ t.draws = s.draws ∧
    (∀ a : Target, a ≠ .status → readTarget a t = readTarget a s) ∧ (s.status.busy = true → t.ifc = s.ifc)

/-! ## The machine as a whole -/

/-- O51. The invariants hold after reset (10_state.md sections 4 and 5). -/
def Obligations.ResetIsConsistent : Prop := Consistent State.reset

/-- O52. Every step keeps the invariants: R43 (i), (ii), (iii), (v), no error beside `DONE`, no reserved code
(10_state.md section 4, 95_test_vectors.md section 5.2, 60_exceptions.md section 1). -/
def Obligations.StepKeepsConsistent : Prop :=
  ∀ s t : State, Consistent s → step s = .next t → Consistent t

/-- O53. A consistent state never stops: every transaction in every state has a defined outcome, and so do completion and
reset (70_reset_and_hazards.md section 5). -/
def Obligations.ConsistentStateNeverStops : Prop := ∀ s : State, Consistent s → StepSafe s

/-- O54. `BUSY` is set by the issue of a legal command whose preconditions hold, cleared by a completion and by reset;
nothing else writes it (R32). -/
def Obligations.BusyWrittenOnlyByIssueCompletionReset : Prop :=
  ∀ s t : State, step s = .next t →
    (s.status.busy = false → t.status.busy = true →
      ∃ v i rest, s.inbox = .write 0x00 4 v :: rest ∧ s.status.errf = false ∧ decode v = .ok i ∧
        preconditionFailure i s = none) ∧
    (∀ v i, nextEvent s = .write 0x00 4 v → s.status.busy = false → s.status.errf = false → decode v = .ok i →
      preconditionFailure i s = none → t.status.busy = true) ∧
    (s.status.busy = true → t.status.busy = false → nextEvent s = .complete ∨ nextEvent s = .reset) ∧
    (s.status.busy = true → nextEvent s = .complete ∨ nextEvent s = .reset → t.status.busy = false)

/-- O55. `DONE` is set by a completion and by nothing else, and cleared by an accepted `CMD` write, by a `STATUS` write with
bit 1 while `BUSY`=0, by reset, and by nothing else (R33). -/
def Obligations.DoneSetOnlyByCompletion : Prop :=
  ∀ s t : State, step s = .next t →
    (s.status.done = false → t.status.done = true → s.status.busy = true ∧ nextEvent s = .complete) ∧
    (s.status.busy = true → nextEvent s = .complete → t.status.done = true) ∧
    (∀ v, nextEvent s = .write 0x00 4 v → s.status.busy = false → s.status.errf = false → t.status.done = false) ∧
    (∀ v, nextEvent s = .write 0x04 4 v → s.status.busy = false → v.getLsbD 1 = true → t.status.done = false) ∧
    (nextEvent s = .reset → t.status.done = false) ∧
    (s.status.done = true → t.status.done = false →
      (∃ v, nextEvent s = .write 0x00 4 v ∧ s.status.busy = false ∧ s.status.errf = false) ∨
      (∃ v, nextEvent s = .write 0x04 4 v ∧ s.status.busy = false ∧ v.getLsbD 1 = true) ∨
      nextEvent s = .reset)

/-- O56. `KEYVALID` is set by the completion of KEYEXP and by nothing else, and cleared by a write to a word of `KEY` while
`BUSY`=0, by reset, and by nothing else (10_state.md section 3). -/
def Obligations.KeyValidSetOnlyByKeyexp : Prop :=
  ∀ s t : State, step s = .next t →
    (s.status.keyValid = false → t.status.keyValid = true →
      s.status.busy = true ∧ nextEvent s = .complete ∧ decode s.ifc = .ok .keyexp) ∧
    (s.status.busy = true → nextEvent s = .complete → decode s.ifc = .ok .keyexp → t.status.keyValid = true) ∧
    (∀ off v, nextEvent s = .write off 4 v → s.status.busy = false → off.toNat % 4 = 0 → 0x20 ≤ off.toNat →
      off.toNat < 0x30 → t.status.keyValid = false) ∧
    (nextEvent s = .reset → t.status.keyValid = false) ∧
    (s.status.keyValid = true → t.status.keyValid = false →
      (∃ off v, nextEvent s = .write off 4 v ∧ s.status.busy = false ∧ off.toNat % 4 = 0 ∧ 0x20 ≤ off.toNat ∧
        off.toNat < 0x30) ∨ nextEvent s = .reset)

/-- O57. `OVR` is set by every admitted write that arrives while `BUSY`=1 and by nothing else, and cleared by a `STATUS`
write with bit 4 while `BUSY`=0, by reset, and by nothing else (R36). No command reads it and it blocks
nothing: with another value of it, every command does the same. -/
def Obligations.OvrRecordsDroppedWrites : Prop :=
  (∀ s t : State, step s = .next t →
    (∀ off v, nextEvent s = .write off 4 v → s.status.busy = true → off.toNat % 4 = 0 → t.status.ovr = true) ∧
    (s.status.ovr = false → t.status.ovr = true →
      ∃ off v, nextEvent s = .write off 4 v ∧ s.status.busy = true ∧ off.toNat % 4 = 0) ∧
    (∀ v, nextEvent s = .write 0x04 4 v → s.status.busy = false → v.getLsbD 4 = true → t.status.ovr = false) ∧
    (nextEvent s = .reset → t.status.ovr = false) ∧
    (s.status.ovr = true → t.status.ovr = false →
      (∃ v, nextEvent s = .write 0x04 4 v ∧ s.status.busy = false ∧ v.getLsbD 4 = true) ∨ nextEvent s = .reset)) ∧
  (∀ (i : Instr) (s t : State) (b : Bool), exec i s = .next t →
    exec i { s with status := { s.status with ovr := b } } =
      .next { t with status := { t.status with ovr := b } })

/-- O58. Nothing but a completion of KEYEXP or a reset changes `RK`, and nothing but a write to `KEY` or a reset changes
`KEY`: no command writes it (10_state.md section 2, 42_aes_keyexp_cipher.md section 1). -/
def Obligations.KeyMaterialChangesOnlyByItsWriters : Prop :=
  ∀ s t : State, step s = .next t →
    (t.rk ≠ s.rk →
      (s.status.busy = true ∧ nextEvent s = .complete ∧ decode s.ifc = .ok .keyexp) ∨ nextEvent s = .reset) ∧
    (t.key ≠ s.key →
      (∃ off v, nextEvent s = .write off 4 v ∧ s.status.busy = false ∧ 0x20 ≤ off.toNat ∧ off.toNat < 0x30) ∨
      nextEvent s = .reset)

/-- O59. Whatever the host does on the bus while a command is in flight, the completion leaves every register but `OVR`
exactly as it would have left it at once: results are functions of the registers at issue, for every latency
(10_state.md section 4, 00_scope.md section 6). -/
def Obligations.BusyTrafficCannotChangeTheResult : Prop :=
  ∀ (s u : State) (i : Instr) (evs rest : List Event),
    s.status.busy = true → decode s.ifc = .ok i → (∀ e ∈ evs, e.isTransaction = true) →
    s.inbox = evs ++ .complete :: rest → exec i s = .next u →
    ∃ t, Host.Core.run core (evs.length + 1) s = .next t ∧ SameRegisters u t ∧ t.inbox = rest

/-- O60. ENCRYPT equals the 40 primitive commands in sequence: the same `ST`, `KEY`, `RK`, `KEYVALID`. Each command runs in
the schedule of R96 in which completion follows issue at once (`runAtOnce`), not as a script with waits;
`BusyTrafficCannotChangeTheResult` (O59) carries the result to the other schedules (42_aes_keyexp_cipher.md section 2). -/
def Obligations.EncryptEqualsThePrimitives : Prop :=
  ∀ s : State, s.status.keyValid = true → s.status.busy = false → s.status.errf = false →
    ∃ t u, runInOrder primitiveCipher s = .next t ∧ runInOrder [.encrypt] s = .next u ∧
      t.st = u.st ∧ t.key = u.key ∧ t.rk = u.rk ∧ t.status.keyValid = u.status.keyValid
end

