-- ==== Sys2Proof/Laws/State.lean ====
section
/-! SUPPORT. What each update of the state, and of the flags, does to each field. -/

namespace Sys2Proof.Machine

/-! `raiseErr` -/

@[simp] theorem raiseErr_st (c : ErrCode) (w : Word) (s : State) : (raiseErr c w s).st = s.st := rfl
@[simp] theorem raiseErr_key (c : ErrCode) (w : Word) (s : State) : (raiseErr c w s).key = s.key := rfl
@[simp] theorem raiseErr_rk (c : ErrCode) (w : Word) (s : State) : (raiseErr c w s).rk = s.rk := rfl
@[simp] theorem raiseErr_gfa (c : ErrCode) (w : Word) (s : State) : (raiseErr c w s).gfa = s.gfa := rfl
@[simp] theorem raiseErr_gfb (c : ErrCode) (w : Word) (s : State) : (raiseErr c w s).gfb = s.gfb := rfl
@[simp] theorem raiseErr_gfp (c : ErrCode) (w : Word) (s : State) : (raiseErr c w s).gfp = s.gfp := rfl
@[simp] theorem raiseErr_mpb (c : ErrCode) (w : Word) (s : State) : (raiseErr c w s).mpb = s.mpb := rfl
@[simp] theorem raiseErr_mpe (c : ErrCode) (w : Word) (s : State) : (raiseErr c w s).mpe = s.mpe := rfl
@[simp] theorem raiseErr_mpm (c : ErrCode) (w : Word) (s : State) : (raiseErr c w s).mpm = s.mpm := rfl
@[simp] theorem raiseErr_mpr (c : ErrCode) (w : Word) (s : State) : (raiseErr c w s).mpr = s.mpr := rfl
@[simp] theorem raiseErr_status (c : ErrCode) (w : Word) (s : State) : (raiseErr c w s).status = errorFlags c s.status := rfl
@[simp] theorem raiseErr_ecmd (c : ErrCode) (w : Word) (s : State) : (raiseErr c w s).ecmd = w := rfl
@[simp] theorem raiseErr_ifc (c : ErrCode) (w : Word) (s : State) : (raiseErr c w s).ifc = s.ifc := rfl
@[simp] theorem raiseErr_inbox (c : ErrCode) (w : Word) (s : State) : (raiseErr c w s).inbox = s.inbox := rfl
@[simp] theorem raiseErr_replies (c : ErrCode) (w : Word) (s : State) : (raiseErr c w s).replies = s.replies := rfl
@[simp] theorem raiseErr_draws (c : ErrCode) (w : Word) (s : State) : (raiseErr c w s).draws = s.draws := rfl

/-! `startCommand` -/

@[simp] theorem startCommand_st (w : Word) (s : State) : (startCommand w s).st = s.st := rfl
@[simp] theorem startCommand_key (w : Word) (s : State) : (startCommand w s).key = s.key := rfl
@[simp] theorem startCommand_rk (w : Word) (s : State) : (startCommand w s).rk = s.rk := rfl
@[simp] theorem startCommand_gfa (w : Word) (s : State) : (startCommand w s).gfa = s.gfa := rfl
@[simp] theorem startCommand_gfb (w : Word) (s : State) : (startCommand w s).gfb = s.gfb := rfl
@[simp] theorem startCommand_gfp (w : Word) (s : State) : (startCommand w s).gfp = s.gfp := rfl
@[simp] theorem startCommand_mpb (w : Word) (s : State) : (startCommand w s).mpb = s.mpb := rfl
@[simp] theorem startCommand_mpe (w : Word) (s : State) : (startCommand w s).mpe = s.mpe := rfl
@[simp] theorem startCommand_mpm (w : Word) (s : State) : (startCommand w s).mpm = s.mpm := rfl
@[simp] theorem startCommand_mpr (w : Word) (s : State) : (startCommand w s).mpr = s.mpr := rfl
@[simp] theorem startCommand_status (w : Word) (s : State) : (startCommand w s).status = startFlags s.status := rfl
@[simp] theorem startCommand_ecmd (w : Word) (s : State) : (startCommand w s).ecmd = s.ecmd := rfl
@[simp] theorem startCommand_ifc (w : Word) (s : State) : (startCommand w s).ifc = w := rfl
@[simp] theorem startCommand_inbox (w : Word) (s : State) : (startCommand w s).inbox = s.inbox := rfl
@[simp] theorem startCommand_replies (w : Word) (s : State) : (startCommand w s).replies = s.replies := rfl
@[simp] theorem startCommand_draws (w : Word) (s : State) : (startCommand w s).draws = s.draws := rfl

/-! `finishCommand` -/

@[simp] theorem finishCommand_st (s : State) : (finishCommand s).st = s.st := rfl
@[simp] theorem finishCommand_key (s : State) : (finishCommand s).key = s.key := rfl
@[simp] theorem finishCommand_rk (s : State) : (finishCommand s).rk = s.rk := rfl
@[simp] theorem finishCommand_gfa (s : State) : (finishCommand s).gfa = s.gfa := rfl
@[simp] theorem finishCommand_gfb (s : State) : (finishCommand s).gfb = s.gfb := rfl
@[simp] theorem finishCommand_gfp (s : State) : (finishCommand s).gfp = s.gfp := rfl
@[simp] theorem finishCommand_mpb (s : State) : (finishCommand s).mpb = s.mpb := rfl
@[simp] theorem finishCommand_mpe (s : State) : (finishCommand s).mpe = s.mpe := rfl
@[simp] theorem finishCommand_mpm (s : State) : (finishCommand s).mpm = s.mpm := rfl
@[simp] theorem finishCommand_mpr (s : State) : (finishCommand s).mpr = s.mpr := rfl
@[simp] theorem finishCommand_status (s : State) : (finishCommand s).status = finishFlags s.status := rfl
@[simp] theorem finishCommand_ecmd (s : State) : (finishCommand s).ecmd = s.ecmd := rfl
@[simp] theorem finishCommand_ifc (s : State) : (finishCommand s).ifc = s.ifc := rfl
@[simp] theorem finishCommand_inbox (s : State) : (finishCommand s).inbox = s.inbox := rfl
@[simp] theorem finishCommand_replies (s : State) : (finishCommand s).replies = s.replies := rfl
@[simp] theorem finishCommand_draws (s : State) : (finishCommand s).draws = s.draws := rfl

/-! `reply` -/

@[simp] theorem reply_st (r : Reply) (s : State) : (reply r s).st = s.st := rfl
@[simp] theorem reply_key (r : Reply) (s : State) : (reply r s).key = s.key := rfl
@[simp] theorem reply_rk (r : Reply) (s : State) : (reply r s).rk = s.rk := rfl
@[simp] theorem reply_gfa (r : Reply) (s : State) : (reply r s).gfa = s.gfa := rfl
@[simp] theorem reply_gfb (r : Reply) (s : State) : (reply r s).gfb = s.gfb := rfl
@[simp] theorem reply_gfp (r : Reply) (s : State) : (reply r s).gfp = s.gfp := rfl
@[simp] theorem reply_mpb (r : Reply) (s : State) : (reply r s).mpb = s.mpb := rfl
@[simp] theorem reply_mpe (r : Reply) (s : State) : (reply r s).mpe = s.mpe := rfl
@[simp] theorem reply_mpm (r : Reply) (s : State) : (reply r s).mpm = s.mpm := rfl
@[simp] theorem reply_mpr (r : Reply) (s : State) : (reply r s).mpr = s.mpr := rfl
@[simp] theorem reply_status (r : Reply) (s : State) : (reply r s).status = s.status := rfl
@[simp] theorem reply_ecmd (r : Reply) (s : State) : (reply r s).ecmd = s.ecmd := rfl
@[simp] theorem reply_ifc (r : Reply) (s : State) : (reply r s).ifc = s.ifc := rfl
@[simp] theorem reply_inbox (r : Reply) (s : State) : (reply r s).inbox = s.inbox := rfl
@[simp] theorem reply_replies (r : Reply) (s : State) : (reply r s).replies = r :: s.replies := rfl
@[simp] theorem reply_draws (r : Reply) (s : State) : (reply r s).draws = s.draws := rfl

/-! `dropWrite` -/

@[simp] theorem dropWrite_st (s : State) : (dropWrite s).st = s.st := rfl
@[simp] theorem dropWrite_key (s : State) : (dropWrite s).key = s.key := rfl
@[simp] theorem dropWrite_rk (s : State) : (dropWrite s).rk = s.rk := rfl
@[simp] theorem dropWrite_gfa (s : State) : (dropWrite s).gfa = s.gfa := rfl
@[simp] theorem dropWrite_gfb (s : State) : (dropWrite s).gfb = s.gfb := rfl
@[simp] theorem dropWrite_gfp (s : State) : (dropWrite s).gfp = s.gfp := rfl
@[simp] theorem dropWrite_mpb (s : State) : (dropWrite s).mpb = s.mpb := rfl
@[simp] theorem dropWrite_mpe (s : State) : (dropWrite s).mpe = s.mpe := rfl
@[simp] theorem dropWrite_mpm (s : State) : (dropWrite s).mpm = s.mpm := rfl
@[simp] theorem dropWrite_mpr (s : State) : (dropWrite s).mpr = s.mpr := rfl
@[simp] theorem dropWrite_status (s : State) : (dropWrite s).status = { s.status with ovr := true } := rfl
@[simp] theorem dropWrite_ecmd (s : State) : (dropWrite s).ecmd = s.ecmd := rfl
@[simp] theorem dropWrite_ifc (s : State) : (dropWrite s).ifc = s.ifc := rfl
@[simp] theorem dropWrite_inbox (s : State) : (dropWrite s).inbox = s.inbox := rfl
@[simp] theorem dropWrite_replies (s : State) : (dropWrite s).replies = s.replies := rfl
@[simp] theorem dropWrite_draws (s : State) : (dropWrite s).draws = s.draws := rfl

/-! `writeStatus` -/

@[simp] theorem writeStatus_st (v : Word) (s : State) : (writeStatus v s).st = s.st := rfl
@[simp] theorem writeStatus_key (v : Word) (s : State) : (writeStatus v s).key = s.key := rfl
@[simp] theorem writeStatus_rk (v : Word) (s : State) : (writeStatus v s).rk = s.rk := rfl
@[simp] theorem writeStatus_gfa (v : Word) (s : State) : (writeStatus v s).gfa = s.gfa := rfl
@[simp] theorem writeStatus_gfb (v : Word) (s : State) : (writeStatus v s).gfb = s.gfb := rfl
@[simp] theorem writeStatus_gfp (v : Word) (s : State) : (writeStatus v s).gfp = s.gfp := rfl
@[simp] theorem writeStatus_mpb (v : Word) (s : State) : (writeStatus v s).mpb = s.mpb := rfl
@[simp] theorem writeStatus_mpe (v : Word) (s : State) : (writeStatus v s).mpe = s.mpe := rfl
@[simp] theorem writeStatus_mpm (v : Word) (s : State) : (writeStatus v s).mpm = s.mpm := rfl
@[simp] theorem writeStatus_mpr (v : Word) (s : State) : (writeStatus v s).mpr = s.mpr := rfl
@[simp] theorem writeStatus_status (v : Word) (s : State) : (writeStatus v s).status = writeOneToClear v s.status := rfl
@[simp] theorem writeStatus_ecmd (v : Word) (s : State) : (writeStatus v s).ecmd = if v.getLsbD 3 then 0 else s.ecmd := rfl
@[simp] theorem writeStatus_ifc (v : Word) (s : State) : (writeStatus v s).ifc = s.ifc := rfl
@[simp] theorem writeStatus_inbox (v : Word) (s : State) : (writeStatus v s).inbox = s.inbox := rfl
@[simp] theorem writeStatus_replies (v : Word) (s : State) : (writeStatus v s).replies = s.replies := rfl
@[simp] theorem writeStatus_draws (v : Word) (s : State) : (writeStatus v s).draws = s.draws := rfl

/-! `takeEvent` -/

@[simp] theorem takeEvent_st (s : State) : (takeEvent s).st = s.st := rfl
@[simp] theorem takeEvent_key (s : State) : (takeEvent s).key = s.key := rfl
@[simp] theorem takeEvent_rk (s : State) : (takeEvent s).rk = s.rk := rfl
@[simp] theorem takeEvent_gfa (s : State) : (takeEvent s).gfa = s.gfa := rfl
@[simp] theorem takeEvent_gfb (s : State) : (takeEvent s).gfb = s.gfb := rfl
@[simp] theorem takeEvent_gfp (s : State) : (takeEvent s).gfp = s.gfp := rfl
@[simp] theorem takeEvent_mpb (s : State) : (takeEvent s).mpb = s.mpb := rfl
@[simp] theorem takeEvent_mpe (s : State) : (takeEvent s).mpe = s.mpe := rfl
@[simp] theorem takeEvent_mpm (s : State) : (takeEvent s).mpm = s.mpm := rfl
@[simp] theorem takeEvent_mpr (s : State) : (takeEvent s).mpr = s.mpr := rfl
@[simp] theorem takeEvent_status (s : State) : (takeEvent s).status = s.status := rfl
@[simp] theorem takeEvent_ecmd (s : State) : (takeEvent s).ecmd = s.ecmd := rfl
@[simp] theorem takeEvent_ifc (s : State) : (takeEvent s).ifc = s.ifc := rfl
@[simp] theorem takeEvent_inbox (s : State) : (takeEvent s).inbox = s.inbox.tail := rfl
@[simp] theorem takeEvent_replies (s : State) : (takeEvent s).replies = s.replies := rfl
@[simp] theorem takeEvent_draws (s : State) : (takeEvent s).draws = s.draws := rfl

/-! `resetBlock` -/

@[simp] theorem resetBlock_st (s : State) : (resetBlock s).st = State.reset.st := rfl
@[simp] theorem resetBlock_key (s : State) : (resetBlock s).key = State.reset.key := rfl
@[simp] theorem resetBlock_rk (s : State) : (resetBlock s).rk = State.reset.rk := rfl
@[simp] theorem resetBlock_gfa (s : State) : (resetBlock s).gfa = State.reset.gfa := rfl
@[simp] theorem resetBlock_gfb (s : State) : (resetBlock s).gfb = State.reset.gfb := rfl
@[simp] theorem resetBlock_gfp (s : State) : (resetBlock s).gfp = State.reset.gfp := rfl
@[simp] theorem resetBlock_mpb (s : State) : (resetBlock s).mpb = State.reset.mpb := rfl
@[simp] theorem resetBlock_mpe (s : State) : (resetBlock s).mpe = State.reset.mpe := rfl
@[simp] theorem resetBlock_mpm (s : State) : (resetBlock s).mpm = State.reset.mpm := rfl
@[simp] theorem resetBlock_mpr (s : State) : (resetBlock s).mpr = State.reset.mpr := rfl
@[simp] theorem resetBlock_status (s : State) : (resetBlock s).status = State.reset.status := rfl
@[simp] theorem resetBlock_ecmd (s : State) : (resetBlock s).ecmd = State.reset.ecmd := rfl
@[simp] theorem resetBlock_ifc (s : State) : (resetBlock s).ifc = State.reset.ifc := rfl
@[simp] theorem resetBlock_inbox (s : State) : (resetBlock s).inbox = s.inbox := rfl
@[simp] theorem resetBlock_replies (s : State) : (resetBlock s).replies = s.replies := rfl
@[simp] theorem resetBlock_draws (s : State) : (resetBlock s).draws = s.draws := rfl

/-! `clearDone` -/

@[simp] theorem clearDone_busy (f : Status) : (clearDone f).busy = f.busy := rfl
@[simp] theorem clearDone_done (f : Status) : (clearDone f).done = false := rfl
@[simp] theorem clearDone_keyValid (f : Status) : (clearDone f).keyValid = f.keyValid := rfl
@[simp] theorem clearDone_errf (f : Status) : (clearDone f).errf = f.errf := rfl
@[simp] theorem clearDone_ovr (f : Status) : (clearDone f).ovr = f.ovr := rfl
@[simp] theorem clearDone_ecode (f : Status) : (clearDone f).ecode = f.ecode := rfl

/-! `startFlags` -/

@[simp] theorem startFlags_busy (f : Status) : (startFlags f).busy = true := rfl
@[simp] theorem startFlags_done (f : Status) : (startFlags f).done = false := rfl
@[simp] theorem startFlags_keyValid (f : Status) : (startFlags f).keyValid = f.keyValid := rfl
@[simp] theorem startFlags_errf (f : Status) : (startFlags f).errf = f.errf := rfl
@[simp] theorem startFlags_ovr (f : Status) : (startFlags f).ovr = f.ovr := rfl
@[simp] theorem startFlags_ecode (f : Status) : (startFlags f).ecode = f.ecode := rfl

/-! `finishFlags` -/

@[simp] theorem finishFlags_busy (f : Status) : (finishFlags f).busy = false := rfl
@[simp] theorem finishFlags_done (f : Status) : (finishFlags f).done = true := rfl
@[simp] theorem finishFlags_keyValid (f : Status) : (finishFlags f).keyValid = f.keyValid := rfl
@[simp] theorem finishFlags_errf (f : Status) : (finishFlags f).errf = f.errf := rfl
@[simp] theorem finishFlags_ovr (f : Status) : (finishFlags f).ovr = f.ovr := rfl
@[simp] theorem finishFlags_ecode (f : Status) : (finishFlags f).ecode = f.ecode := rfl

/-! `errorFlags` -/

@[simp] theorem errorFlags_busy (c : ErrCode) (f : Status) : (errorFlags c f).busy = f.busy := rfl
@[simp] theorem errorFlags_done (c : ErrCode) (f : Status) : (errorFlags c f).done = f.done := rfl
@[simp] theorem errorFlags_keyValid (c : ErrCode) (f : Status) : (errorFlags c f).keyValid = f.keyValid := rfl
@[simp] theorem errorFlags_errf (c : ErrCode) (f : Status) : (errorFlags c f).errf = true := rfl
@[simp] theorem errorFlags_ovr (c : ErrCode) (f : Status) : (errorFlags c f).ovr = f.ovr := rfl
@[simp] theorem errorFlags_ecode (c : ErrCode) (f : Status) : (errorFlags c f).ecode = c.bits := rfl

/-! `writeOneToClear` -/

@[simp] theorem writeOneToClear_busy (v : Word) (f : Status) : (writeOneToClear v f).busy = f.busy := rfl
@[simp] theorem writeOneToClear_done (v : Word) (f : Status) : (writeOneToClear v f).done = (f.done && !v.getLsbD 1) := rfl
@[simp] theorem writeOneToClear_keyValid (v : Word) (f : Status) : (writeOneToClear v f).keyValid = f.keyValid := rfl
@[simp] theorem writeOneToClear_errf (v : Word) (f : Status) : (writeOneToClear v f).errf = (f.errf && !v.getLsbD 3) := rfl
@[simp] theorem writeOneToClear_ovr (v : Word) (f : Status) : (writeOneToClear v f).ovr = (f.ovr && !v.getLsbD 4) := rfl
@[simp] theorem writeOneToClear_ecode (v : Word) (f : Status) : (writeOneToClear v f).ecode = if v.getLsbD 3 then 0 else f.ecode := rfl

end Sys2Proof.Machine
end

