-- ==== Sys2Proof/Laws/Ops.lean ====
section
/-! SUPPORT. What each shared operation can answer, said once. -/

namespace Sys2Proof.Machine

theorem admitted_iff (off : Offset) (n : Nat) : admitted off n = true ↔ n = 4 ∧ off.toNat % 4 = 0 := by
  simp [admitted]

/-- While `BUSY`=1 a command completes (R98). -/
theorem runCommand_busy (w : Word) (failure : Option ErrCode) (effect s : State) (h : s.status.busy = true) :
    runCommand w failure effect s = .next (finishCommand effect) := by
  simp [runCommand, h]

/-- While `BUSY`=0 a command is issued (R97). -/
theorem runCommand_idle (w : Word) (failure : Option ErrCode) (effect s : State) (h : s.status.busy = false) :
    runCommand w failure effect s = .next (issue w failure s) := by
  simp [runCommand, h]

/-- While an error stands, an issue changes nothing (R205). -/
theorem issue_errf (w : Word) (failure : Option ErrCode) (s : State) (h : s.status.errf = true) :
    issue w failure s = s := by
  simp [issue, h]

/-- An issue whose checks pass starts the command (R97). -/
theorem issue_start (w : Word) (s : State) (h : s.status.errf = false) : issue w none s = startCommand w s := by
  simp [issue, h]

/-- An issue with a failed check raises its error, `DONE` being cleared first (R97, R204). -/
theorem issue_raise (w : Word) (code : ErrCode) (s : State) (h : s.status.errf = false) :
    issue w (some code) s = raiseErr code w { s with status := clearDone s.status } := by
  simp [issue, h]

/-- All an issue can do (R97): nothing, start the command, or raise one error. -/
theorem issue_cases (w : Word) (failure : Option ErrCode) (s : State) :
    (s.status.errf = true ∧ issue w failure s = s) ∨
    (s.status.errf = false ∧ failure = none ∧ issue w failure s = startCommand w s) ∨
    (∃ code, s.status.errf = false ∧ failure = some code ∧
      issue w failure s = raiseErr code w { s with status := clearDone s.status }) := by
  cases he : s.status.errf with
  | true => exact .inl ⟨rfl, issue_errf w failure s he⟩
  | false =>
    cases failure with
    | none => exact .inr (.inl ⟨rfl, rfl, issue_start w s he⟩)
    | some code => exact .inr (.inr ⟨code, rfl, rfl, issue_raise w code s he⟩)

/-- All a word that is no command can do (R95): raise ERR_ILLEGAL, or stop where no reachable state is. -/
theorem illegalCommand_cases (w : Word) (s : State) :
    (s.status.busy = false ∧ illegalCommand w s = .next (issue w (some .illegal) s)) ∨
    (s.status.busy = true ∧ illegalCommand w s = .fault (.illegalInFlight w)) := by
  cases h : s.status.busy <;> simp [illegalCommand, h]

/-- A read changes nothing of the block: only the host's replies and the count of draws (R64, R65). -/
theorem busRead_eq (off : Offset) (n : Nat) (s : State) :
    ∃ r d, busRead off n s = { s with replies := r :: s.replies, draws := d } := by
  unfold busRead
  split
  · exact ⟨_, _, rfl⟩
  · exact ⟨_, s.draws, rfl⟩

/-- No error code is 0 (R201). -/
theorem ErrCode.bits_ne_zero (c : ErrCode) : c.bits ≠ 0 := by cases c <;> decide

/-- The error codes are 1 to 4 (R201). -/
theorem ErrCode.bits_le (c : ErrCode) : c.bits.toNat ≤ 4 := by cases c <;> decide

end Sys2Proof.Machine
end

