-- ==== Sys2Proof/Laws/Exec.lean ====
section
/-! SUPPORT. What the meanings can answer: each command is its check, its effect, and the shared life of a command. -/

namespace Sys2Proof.Machine

/-- The state each command's completion takes on before the flags are set (R26 and the command's rule). -/
def commandEffect (i : Instr) (s : State) : State :=
  match i with
  | .nop => s
  | .subbytes => { s with st := subBytes s.st }
  | .shiftrows => { s with st := shiftRows s.st }
  | .mixcolumns => { s with st := mixColumns s.st }
  | .addroundkey r => if h : r.toNat < 11 then { s with st := addRoundKey s.st s.rk[r.toNat] } else s
  | .keyexp => { s with rk := keyExpansion s.key, status := { s.status with keyValid := true } }
  | .encrypt => { s with st := cipher s.st s.rk }
  | .gfmul => { s with gfp := gfmul s.gfa s.gfb }
  | .modpow => { s with mpr := modpowResult s }
  | .rsaenc => { s with mpr := modpowResult s }

/-! What a command's effect leaves alone (R26). -/

@[simp] theorem commandEffect_key (i : Instr) (s : State) : (commandEffect i s).key = s.key := by
  cases i <;> simp only [commandEffect]; split <;> rfl

@[simp] theorem commandEffect_gfa (i : Instr) (s : State) : (commandEffect i s).gfa = s.gfa := by
  cases i <;> simp only [commandEffect]; split <;> rfl

@[simp] theorem commandEffect_gfb (i : Instr) (s : State) : (commandEffect i s).gfb = s.gfb := by
  cases i <;> simp only [commandEffect]; split <;> rfl

@[simp] theorem commandEffect_mpb (i : Instr) (s : State) : (commandEffect i s).mpb = s.mpb := by
  cases i <;> simp only [commandEffect]; split <;> rfl

@[simp] theorem commandEffect_mpe (i : Instr) (s : State) : (commandEffect i s).mpe = s.mpe := by
  cases i <;> simp only [commandEffect]; split <;> rfl

@[simp] theorem commandEffect_mpm (i : Instr) (s : State) : (commandEffect i s).mpm = s.mpm := by
  cases i <;> simp only [commandEffect]; split <;> rfl

@[simp] theorem commandEffect_ecmd (i : Instr) (s : State) : (commandEffect i s).ecmd = s.ecmd := by
  cases i <;> simp only [commandEffect]; split <;> rfl

@[simp] theorem commandEffect_ifc (i : Instr) (s : State) : (commandEffect i s).ifc = s.ifc := by
  cases i <;> simp only [commandEffect]; split <;> rfl

@[simp] theorem commandEffect_inbox (i : Instr) (s : State) : (commandEffect i s).inbox = s.inbox := by
  cases i <;> simp only [commandEffect]; split <;> rfl

@[simp] theorem commandEffect_replies (i : Instr) (s : State) : (commandEffect i s).replies = s.replies := by
  cases i <;> simp only [commandEffect]; split <;> rfl

@[simp] theorem commandEffect_draws (i : Instr) (s : State) : (commandEffect i s).draws = s.draws := by
  cases i <;> simp only [commandEffect]; split <;> rfl

@[simp] theorem commandEffect_busy (i : Instr) (s : State) : (commandEffect i s).status.busy = s.status.busy := by
  cases i <;> simp only [commandEffect]; split <;> rfl

@[simp] theorem commandEffect_done (i : Instr) (s : State) : (commandEffect i s).status.done = s.status.done := by
  cases i <;> simp only [commandEffect]; split <;> rfl

@[simp] theorem commandEffect_errf (i : Instr) (s : State) : (commandEffect i s).status.errf = s.status.errf := by
  cases i <;> simp only [commandEffect]; split <;> rfl

@[simp] theorem commandEffect_ovr (i : Instr) (s : State) : (commandEffect i s).status.ovr = s.status.ovr := by
  cases i <;> simp only [commandEffect]; split <;> rfl

@[simp] theorem commandEffect_ecode (i : Instr) (s : State) : (commandEffect i s).status.ecode = s.status.ecode := by
  cases i <;> simp only [commandEffect]; split <;> rfl

/-- Only KEYEXP writes `RK` (R23, R26). -/
theorem commandEffect_rk (i : Instr) (s : State) (h : i ≠ .keyexp) : (commandEffect i s).rk = s.rk := by
  cases i <;> simp only [commandEffect] <;> first | exact absurd rfl h | (split <;> rfl)

/-- Only KEYEXP writes `KEYVALID` (R34). -/
theorem commandEffect_keyValid (i : Instr) (s : State) (h : i ≠ .keyexp) :
    (commandEffect i s).status.keyValid = s.status.keyValid := by
  cases i <;> simp only [commandEffect] <;> first | exact absurd rfl h | (split <;> rfl)

/-- A well-formed command's meaning is the shared life of a command over its check and its effect. -/
theorem exec_eq_runCommand (i : Instr) (s : State) (hw : i.wellFormed = true) :
    exec i s = runCommand (encode i) (preconditionFailure i s) (commandEffect i s) s := by
  cases i with
  | addroundkey r =>
    have hr : r.toNat < 11 := by simp [Instr.wellFormed] at hw; omega
    simp only [exec, execAddroundkey, commandEffect, preconditionFailure, dif_pos hr, keyCheck]
  | modpow =>
    by_cases h : s.mpm = 0 <;> simp [exec, execModpow, commandEffect, preconditionFailure, modulusCheck, h]
  | rsaenc =>
    by_cases h : s.mpm = 0 <;>
      simp [exec, execRsaenc, commandEffect, preconditionFailure, rangeCheck, h, BitVec.lt_def]
  | _ => rfl

/-- While `BUSY`=1 a well-formed command completes (R98). -/
theorem exec_busy (i : Instr) (s : State) (hw : i.wellFormed = true) (hb : s.status.busy = true) :
    exec i s = .next (finishCommand (commandEffect i s)) := by
  rw [exec_eq_runCommand i s hw, runCommand_busy _ _ _ _ hb]

/-- While `BUSY`=0 a well-formed command is issued (R97). -/
theorem exec_idle (i : Instr) (s : State) (hw : i.wellFormed = true) (hb : s.status.busy = false) :
    exec i s = .next (issue (encode i) (preconditionFailure i s) s) := by
  rw [exec_eq_runCommand i s hw, runCommand_idle _ _ _ _ hb]

/-- An ADDROUNDKEY with an index above 10 is an illegal command (R95, R139). -/
theorem exec_illFormed (i : Instr) (s : State) (hw : i.wellFormed = false) :
    exec i s = illegalCommand (encode i) s := by
  cases i with
  | addroundkey r =>
    have hr : ¬ r.toNat < 11 := by simp [Instr.wellFormed] at hw; omega
    simp only [exec, execAddroundkey, dif_neg hr]
  | _ => simp [Instr.wellFormed] at hw

/-- What the decoder gives is well-formed (R92, R94). -/
theorem wellFormed_of_decode (w : Word) (i : Instr) (h : decode w = .ok i) : i.wellFormed = true := by
  unfold decode at h
  split at h
  · cases h
  · split at h
    · split at h
      · cases h; simpa [Instr.wellFormed]
      · cases h
    · split at h
      · cases h
      · unfold formatNCommand at h
        repeat' split at h
        all_goals cases h
        all_goals rfl

end Sys2Proof.Machine
end

