-- ==== Sys2Proof/Laws/Operands.lean ====
section
/-! SUPPORT. Blocks as matrices and columns, and the S-box table's length. -/

namespace Sys2Proof.Machine

/-- Byte `i` of a block built from a matrix (R9). -/
theorem getElem_ofMatrix (f : Fin 4 → Fin 4 → Byte) (i : Nat) (h : i < 16) :
    (ofMatrix f)[i] = f ⟨i % 4, by omega⟩ ⟨i / 4, by omega⟩ := by
  simp [ofMatrix]

@[simp] theorem cell_ofMatrix (f : Fin 4 → Fin 4 → Byte) (r c : Fin 4) : cell (ofMatrix f) r c = f r c := by
  unfold cell
  rw [getElem_ofMatrix]
  congr 1 <;> ext <;> simp
  omega

/-- Byte `i` of a block is the cell of its matrix in row `i mod 4`, column `i div 4` (R9). -/
theorem getElem_eq_cell (A : Block) (i : Nat) (h : i < 16) :
    A[i] = cell A ⟨i % 4, by omega⟩ ⟨i / 4, by omega⟩ := by
  unfold cell
  congr 1
  simp
  omega

/-- `matrixToBytes` reverses `bytesToMatrix` (R9). -/
@[simp] theorem ofMatrix_cell (A : Block) : ofMatrix (cell A) = A := by
  ext i h
  rw [getElem_ofMatrix, getElem_eq_cell]

/-- Two blocks with the same cells are equal. -/
theorem block_ext (A B : Block) (h : ∀ r c, cell A r c = cell B r c) : A = B := by
  rw [← ofMatrix_cell A, ← ofMatrix_cell B]
  congr 1
  funext r c
  exact h r c

/-- A written column reads back byte by byte; the other columns stay (R66). -/
@[simp] theorem cell_setColumn (A : Block) (k : Fin 4) (v : Word) (r c : Fin 4) :
    cell (setColumn A k v) r c = if c = k then wordByte v r else cell A r c := by
  simp [setColumn]

@[simp] theorem cell_shiftRows (S : Block) (r c : Fin 4) : cell (shiftRows S) r c = cell S r (c + r) := by
  simp [shiftRows]

@[simp] theorem cell_joinWords (ws : Vector KeyWord 4) (j c : Fin 4) : cell (joinWords ws) j c = ws[c][j] := by
  simp [joinWords]

@[simp] theorem cell_subBytes (S : Block) (r c : Fin 4) : cell (subBytes S) r c = sbox (cell S r c) := by
  simp [cell, subBytes]

@[simp] theorem cell_addRoundKey (S K : Block) (r c : Fin 4) :
    cell (addRoundKey S K) r c = cell S r c ^^^ cell K r c := by
  simp [cell, addRoundKey]

/-- `SBOX` has 256 entries (R130). -/
theorem sboxTable_length : sboxTable.length = 256 := by decide +kernel

/-- Every index of the S-box is inside the table, so `sbox` reads an entry of it (R130). -/
theorem sbox_eq_getElem (x : Byte) : sbox x = sboxTable[x.toNat]'(by rw [sboxTable_length]; exact x.isLt) := by
  have h : x.toNat < sboxTable.length := by rw [sboxTable_length]; exact x.isLt
  simp [sbox, List.getD_eq_getElem?_getD, List.getElem?_eq_getElem h]

end Sys2Proof.Machine
end

