-- ==== Sys2Proof/Laws/PerInstr.lean ====
section
/-! SUPPORT. A fact about the encoding of every command, one lemma per constructor: the word's `ZERO` field is 0 and its
`RKSEL` field is 0 unless the command is ADDROUNDKEY (R91). -/

namespace Sys2Proof.Laws.Encoding

/-- The fields an encoded command leaves 0 (R91). -/
def Statement (i : Instr) : Prop :=
  zeroField (encode i) = 0 ∧ ((∃ r, i = .addroundkey r) ∨ rkselField (encode i) = 0)

theorem nop : Statement .nop := ⟨by decide, .inr (by decide)⟩
theorem subbytes : Statement .subbytes := ⟨by decide, .inr (by decide)⟩
theorem shiftrows : Statement .shiftrows := ⟨by decide, .inr (by decide)⟩
theorem mixcolumns : Statement .mixcolumns := ⟨by decide, .inr (by decide)⟩
theorem addroundkey (r : BitVec 4) : Statement (.addroundkey r) := by
  refine ⟨?_, .inl ⟨r, rfl⟩⟩
  revert r
  decide
theorem keyexp : Statement .keyexp := ⟨by decide, .inr (by decide)⟩
theorem encrypt : Statement .encrypt := ⟨by decide, .inr (by decide)⟩
theorem gfmul : Statement .gfmul := ⟨by decide, .inr (by decide)⟩
theorem modpow : Statement .modpow := ⟨by decide, .inr (by decide)⟩
theorem rsaenc : Statement .rsaenc := ⟨by decide, .inr (by decide)⟩

end Sys2Proof.Laws.Encoding
end

