-- ==== Sys2Proof/Laws/Step.lean ====
section
/-! SUPPORT. What one step can do, event by event. -/

namespace Sys2Proof.Machine

/-- A step with a listed event handles it, on the state from which it was taken (R73). -/
theorem step_cons (s : State) (e : Event) (rest : List Event) (h : s.inbox = e :: rest) :
    step s = handle e { s with inbox := rest } := by
  simp [step, nextEvent, takeEvent, h]

/-- A step with nothing listed is the core's turn (R254). -/
theorem step_nil (s : State) (h : s.inbox = []) : step s = coreTurn s := by
  cases s
  simp_all [step, nextEvent, takeEvent, handle]

/-- The core has no step while `BUSY`=0 (R98, R243). -/
theorem coreTurn_idle (s : State) (h : s.status.busy = false) : coreTurn s = .next s := by
  simp [coreTurn, h]

/-- The core's turn completes the legal command in flight (R98). -/
theorem coreTurn_busy (s : State) (i : Instr) (hb : s.status.busy = true) (hd : decode s.ifc = .ok i) :
    coreTurn s = .next (finishCommand (commandEffect i s)) := by
  simp [coreTurn, runWord, hb, hd, exec_busy i s (wellFormed_of_decode _ _ hd) hb]

/-- All an admitted write to `CMD` can do while `BUSY`=0 (R97). -/
theorem commandWrite_cases (w : Word) (s : State) (hb : s.status.busy = false) :
    (s.status.errf = true ∧ commandWrite w s = .next s) ∨
    (∃ i, s.status.errf = false ∧ decode w = .ok i ∧
      commandWrite w s = .next (issue (encode i) (preconditionFailure i s) s)) ∨
    (∃ e, s.status.errf = false ∧ decode w = .error e ∧
      commandWrite w s = .next (issue w (some .illegal) s)) := by
  cases he : s.status.errf with
  | true => exact .inl ⟨rfl, by simp [commandWrite, he]⟩
  | false =>
    cases hd : decode w with
    | ok i =>
      exact .inr (.inl ⟨i, rfl, rfl, by
        simp [commandWrite, runWord, he, hd, exec_idle i s (wellFormed_of_decode _ _ hd) hb]⟩)
    | error e => exact .inr (.inr ⟨e, rfl, rfl, by simp [commandWrite, runWord, he, hd, illegalCommand, hb]⟩)

/-- All a write can do (R63, R67, R68): refused, dropped, an issue, or a write of the register at the offset. -/
theorem busWrite_cases (off : Offset) (n : Nat) (v : Word) (s : State) :
    (admitted off n = false ∧ busWrite off n v s = .next (reply .busError s)) ∨
    (admitted off n = true ∧ s.status.busy = true ∧ busWrite off n v s = .next (reply .ok (dropWrite s))) ∨
    (admitted off n = true ∧ s.status.busy = false ∧ targetAt off = .cmd ∧
      busWrite off n v s = commandWrite v (reply .ok s)) ∨
    (admitted off n = true ∧ s.status.busy = false ∧ targetAt off ≠ .cmd ∧
      busWrite off n v s = .next (writeTarget (targetAt off) v (reply .ok s))) := by
  cases ha : admitted off n with
  | false => simp [busWrite, ha]
  | true =>
    cases hb : s.status.busy with
    | true => simp [busWrite, ha, hb]
    | false => by_cases ht : targetAt off = .cmd <;> simp [busWrite, ha, hb, idleWrite, ht]

/-! What a register write leaves alone (R67). -/

@[simp] theorem writeTarget_rk (a : Target) (v : Word) (s : State) : (writeTarget a v s).rk = s.rk := by
  cases a <;> rfl

@[simp] theorem writeTarget_gfp (a : Target) (v : Word) (s : State) : (writeTarget a v s).gfp = s.gfp := by
  cases a <;> rfl

@[simp] theorem writeTarget_mpr (a : Target) (v : Word) (s : State) : (writeTarget a v s).mpr = s.mpr := by
  cases a <;> rfl

@[simp] theorem writeTarget_ifc (a : Target) (v : Word) (s : State) : (writeTarget a v s).ifc = s.ifc := by
  cases a <;> rfl

@[simp] theorem writeTarget_inbox (a : Target) (v : Word) (s : State) : (writeTarget a v s).inbox = s.inbox := by
  cases a <;> rfl

@[simp] theorem writeTarget_replies (a : Target) (v : Word) (s : State) : (writeTarget a v s).replies = s.replies := by
  cases a <;> rfl

@[simp] theorem writeTarget_draws (a : Target) (v : Word) (s : State) : (writeTarget a v s).draws = s.draws := by
  cases a <;> rfl

@[simp] theorem writeTarget_busy (a : Target) (v : Word) (s : State) :
    (writeTarget a v s).status.busy = s.status.busy := by
  cases a <;> rfl

/-- Only a write to `STATUS` changes the flags beside `KEYVALID` (R67, R70). -/
theorem writeTarget_status (a : Target) (v : Word) (s : State) (h : a ≠ .status) (hk : ∀ k, a ≠ .key k) :
    (writeTarget a v s).status = s.status := by
  cases a <;> first | rfl | exact absurd rfl h | exact absurd rfl (hk _)

/-- Only a write to `STATUS` changes `ECMD` (R67, R70). -/
theorem writeTarget_ecmd (a : Target) (v : Word) (s : State) (h : a ≠ .status) :
    (writeTarget a v s).ecmd = s.ecmd := by
  cases a <;> first | rfl | exact absurd rfl h

/-- Only a write to a word of `KEY` changes `KEY` (R67). -/
theorem writeTarget_key (a : Target) (v : Word) (s : State) (h : ∀ k, a ≠ .key k) :
    (writeTarget a v s).key = s.key := by
  cases a <;> first | rfl | exact absurd rfl (h _)

/-- One more step of a run whose first step is known. -/
theorem run_succ (k : Nat) (s t : State) (h : step s = .next t) :
    Host.Core.run core (k + 1) s = Host.Core.run core k t := by
  have h' : core.step s = .next t := h
  simp [Host.Core.run, h']

/-- Only offset 0x00 of the aligned offsets is `CMD` (R61). -/
theorem targetAt_eq_cmd (off : Offset) (ha : off.toNat % 4 = 0) (h : targetAt off = .cmd) : off = 0x00 := by
  revert off
  decide +kernel

/-- Only the four words of `KEY` are targets in it (R61). -/
theorem targetAt_eq_key (off : Offset) (k : Fin 4) (h : targetAt off = .key k) :
    0x20 ≤ off.toNat ∧ off.toNat < 0x30 := by
  revert off k
  decide +kernel

/-- Only offset 0x04 of the aligned offsets is `STATUS` (R61). -/
theorem targetAt_eq_status (off : Offset) (ha : off.toNat % 4 = 0) (h : targetAt off = .status) : off = 0x04 := by
  revert off
  decide +kernel

/-- Everything one step can do, by the event it takes (R73): `s₀` is the state from whose list the event has been taken.
A step that answers a next state is one of
a step that changes no register; a dropped write; a command started; an error raised; a register written;
a command completed; a reset. -/
inductive StepKind (s s₀ t : State) : Prop where
  /-- A read, an access not admitted, a `CMD` write while `ERRF`=1, or the core's turn while `BUSY`=0. -/
  | quiet (replies : List Reply) (draws : Nat) (event : nextEvent s ≠ .reset)
      (turn : nextEvent s = .complete → s.status.busy = false)
      (write : ∀ off v, nextEvent s = .write off 4 v → off.toNat % 4 = 0 →
        off = 0x00 ∧ s.status.busy = false ∧ s.status.errf = true)
      (result : t = { s₀ with replies := replies, draws := draws })
  /-- R68. -/
  | dropped (off : Offset) (v : Word) (event : nextEvent s = .write off 4 v) (aligned : off.toNat % 4 = 0)
      (busy : s.status.busy = true) (result : t = reply .ok (dropWrite s₀))
  /-- R97, the last branch. -/
  | started (v : Word) (i : Instr) (event : nextEvent s = .write 0x00 4 v) (busy : s.status.busy = false)
      (errf : s.status.errf = false) (decoded : decode v = .ok i)
      (checked : preconditionFailure i s = none) (result : t = startCommand (encode i) (reply .ok s₀))
  /-- R97, the branches that raise. -/
  | raised (v : Word) (w : Word) (code : ErrCode) (event : nextEvent s = .write 0x00 4 v)
      (busy : s.status.busy = false) (errf : s.status.errf = false)
      (result : t = raiseErr code w (reply .ok { s₀ with status := clearDone s₀.status }))
  /-- R67. -/
  | written (off : Offset) (v : Word) (event : nextEvent s = .write off 4 v) (aligned : off.toNat % 4 = 0)
      (busy : s.status.busy = false) (target : targetAt off ≠ .cmd)
      (result : t = writeTarget (targetAt off) v (reply .ok s₀))
  /-- R98. -/
  | completed (i : Instr) (event : nextEvent s = .complete) (busy : s.status.busy = true)
      (decoded : decode s.ifc = .ok i) (result : t = finishCommand (commandEffect i s₀))
  /-- R240. -/
  | reset (event : nextEvent s = .reset) (result : t = resetBlock s₀)

/-- The preconditions do not look at the world outside (R97). -/
@[simp] theorem preconditionFailure_reply (i : Instr) (r : Reply) (s : State) :
    preconditionFailure i (reply r s) = preconditionFailure i s := by cases i <;> rfl

@[simp] theorem preconditionFailure_takeEvent (i : Instr) (s : State) :
    preconditionFailure i (takeEvent s) = preconditionFailure i s := by cases i <;> rfl

/-- The inversion lemma of the step. -/
theorem step_kind (s t : State) (h : step s = .next t) : StepKind s (takeEvent s) t := by
  cases he : nextEvent s with
  | read off n =>
    simp only [step, he, handle, Host.Outcome.next.injEq] at h
    obtain ⟨r, d, hr⟩ := busRead_eq off n (takeEvent s)
    rw [hr] at h
    exact .quiet _ d (by simp [he]) (by simp [he]) (by simp [he]) h.symm
  | write off n v =>
    simp only [step, he, handle] at h
    have ofAdmitted (ha : admitted off n = true) : n = 4 ∧ off.toNat % 4 = 0 := (admitted_iff off n).1 ha
    rcases busWrite_cases off n v (takeEvent s) with ⟨ha, e⟩ | ⟨ha, hb, e⟩ | ⟨ha, hb, ht, e⟩ | ⟨ha, hb, ht, e⟩
    · rw [e] at h
      cases h
      have no : ∀ off' v', nextEvent s = .write off' 4 v' → off'.toNat % 4 ≠ 0 := by
        intro off' v' he' ha'
        rw [he] at he'
        cases he'
        simp [admitted, ha'] at ha
      exact .quiet _ _ (by simp [he]) (by simp [he]) (fun o v' e1 e2 => absurd e2 (no o v' e1)) rfl
    · rw [e] at h
      cases h
      obtain ⟨rfl, aligned⟩ := ofAdmitted ha
      exact .dropped off v he aligned hb rfl
    · rw [e] at h
      obtain ⟨rfl, aligned⟩ := ofAdmitted ha
      cases targetAt_eq_cmd off aligned ht
      rcases commandWrite_cases v (reply .ok (takeEvent s)) hb with
        ⟨hf, e⟩ | ⟨i, hf, hd, e⟩ | ⟨_, hf, hd, e⟩
      · rw [e] at h
        cases h
        exact .quiet _ _ (by simp [he]) (by simp [he])
          (fun o v' e1 _ => by rw [he] at e1; cases e1; exact ⟨rfl, hb, hf⟩) rfl
      · rw [e] at h
        cases h
        cases hp : preconditionFailure i s with
        | none =>
          refine .started v i he hb hf hd hp ?_
          simp only [preconditionFailure_reply, preconditionFailure_takeEvent, hp]
          exact issue_start _ _ hf
        | some code =>
          refine .raised v (encode i) code he hb hf ?_
          simp only [preconditionFailure_reply, preconditionFailure_takeEvent, hp]
          exact issue_raise _ _ _ hf
      · rw [e] at h
        cases h
        exact .raised v v .illegal he hb hf (issue_raise _ _ _ hf)
    · rw [e] at h
      cases h
      obtain ⟨rfl, aligned⟩ := ofAdmitted ha
      exact .written off v he aligned hb ht rfl
  | complete =>
    simp only [step, he, handle] at h
    cases hb : s.status.busy with
    | false =>
      rw [coreTurn_idle (takeEvent s) hb] at h
      cases h
      exact .quiet _ _ (by simp [he]) (fun _ => hb) (by simp [he]) rfl
    | true =>
      cases hd : decode s.ifc with
      | ok i =>
        rw [coreTurn_busy (takeEvent s) i hb hd] at h
        cases h
        exact .completed i he hb hd rfl
      | error e => simp [coreTurn, runWord, illegalCommand, hb, hd] at h
  | reset =>
    simp only [step, he, handle, Host.Outcome.next.injEq] at h
    exact .reset he h.symm

end Sys2Proof.Machine
end

