-- ==== Sys2Proof/Tests/Slice0.lean ====
section
/-! SUPPORT. Tests: words of R93 decoded, known answers of spec/95_test_vectors.md one step at a time, and one witness for the
hypotheses of each statement that has some. -/

open Sys2Proof Sys2Proof.Machine

/-! ## Helpers -/

/-- The state after reset, with these events to come. -/
def Tests.idle (evs : List Event) : State := { State.reset with inbox := evs }

/-- The same with the word `w` in flight. -/
def Tests.busy (w : Word) (evs : List Event) : State :=
  { State.reset with status := { State.reset.status with busy := true }, ifc := w, inbox := evs }

/-- The same with an error standing: 0x00000007 was refused. -/
def Tests.failed (evs : List Event) : State :=
  { State.reset with status := { State.reset.status with errf := true, ecode := 1 }, ecmd := 7, inbox := evs }

/-- What `f` reads off a next state. -/
def Tests.after {α : Type} (o : Host.Outcome State Fault Refusal) (f : State → α) : Option α :=
  match o with
  | .next t => some (f t)
  | .fault _ => none
  | .refused _ => none

open Tests

/-- If the next state is read, there is one. -/
theorem Tests.exists_next {α : Type} {o : Host.Outcome State Fault Refusal} {f : State → α} {a : α}
    (h : after o f = some a) : ∃ t, o = .next t ∧ f t = a := by
  cases o with
  | next t => exact ⟨t, rfl, Option.some.inj h⟩
  | fault _ => cases h
  | refused _ => cases h

/-! ## WellFormed: the ill-formed terms its one check refuses (R92) -/

theorem test_wellFormed_refuses_round_key_11 : Instr.wellFormed (.addroundkey 11) = false := by decide

theorem test_wellFormed_refuses_round_key_15 : Instr.wellFormed (.addroundkey 15) = false := by decide

theorem test_wellFormed_takes_round_key_10 : Instr.wellFormed (.addroundkey 10) = true := by decide

/-! ## Decoding: words written out bit by bit, ZERO, RKSEL, OPC (R91, R93; 95_test_vectors.md section 5.1) -/

theorem test_decode_nop : decode 0b00000000000000000000_0000_00000000 = .ok .nop := by decide

theorem test_decode_subbytes : decode 0b00000000000000000000_0000_00000001 = .ok .subbytes := by decide

theorem test_decode_shiftrows : decode 0b00000000000000000000_0000_00000010 = .ok .shiftrows := by decide

theorem test_decode_mixcolumns : decode 0b00000000000000000000_0000_00000011 = .ok .mixcolumns := by decide

theorem test_decode_addroundkey_0 : decode 0b00000000000000000000_0000_00000100 = .ok (.addroundkey 0) := by decide

theorem test_decode_addroundkey_10 : decode 0b00000000000000000000_1010_00000100 = .ok (.addroundkey 10) := by decide

theorem test_decode_keyexp : decode 0b00000000000000000000_0000_00000101 = .ok .keyexp := by decide

theorem test_decode_encrypt : decode 0b00000000000000000000_0000_00000110 = .ok .encrypt := by decide

theorem test_decode_gfmul : decode 0b00000000000000000000_0000_00010000 = .ok .gfmul := by decide

theorem test_decode_modpow : decode 0b00000000000000000000_0000_00100000 = .ok .modpow := by decide

theorem test_decode_rsaenc : decode 0b00000000000000000000_0000_00100001 = .ok .rsaenc := by decide

theorem test_decode_refuses_zero_field :
    decode 0x00001000 = .error .zeroFieldSet ∧ decode 0x00001004 = .error .zeroFieldSet ∧
    decode 0x00010006 = .error .zeroFieldSet ∧ decode 0x80000000 = .error .zeroFieldSet := by decide

theorem test_decode_refuses_large_index :
    decode 0x00000B04 = .error .roundKeyIndexTooLarge ∧ decode 0x00000F04 = .error .roundKeyIndexTooLarge := by decide

theorem test_decode_refuses_selector :
    decode 0x00000100 = .error .selectorSet ∧ decode 0x00000101 = .error .selectorSet ∧
    decode 0x00000110 = .error .selectorSet ∧ decode 0x00000A05 = .error .selectorSet ∧
    decode 0x00000121 = .error .selectorSet := by decide

theorem test_decode_refuses_unassigned :
    decode 0x00000007 = .error .unassignedOpcode ∧ decode 0x0000000F = .error .unassignedOpcode ∧
    decode 0x00000011 = .error .unassignedOpcode ∧ decode 0x0000001F = .error .unassignedOpcode ∧
    decode 0x00000022 = .error .unassignedOpcode ∧ decode 0x000000FF = .error .unassignedOpcode := by decide

theorem test_encode_addroundkey_10 : encode (.addroundkey 10) = 0x00000A04 := by decide

theorem test_tableWord_too_wide : decodeTableWord 64 0x100000000 = none := by decide

/-! ## The commands: each issued from reset, and one known answer each (95_test_vectors.md sections 2 to 4) -/

theorem test_nop_issue : after (step (State.reset.withFetchWord 32 0x00)) (fun t => t.status.busy) = some true := by
  decide

/-- 95_test_vectors.md section 5.4: `STATUS` = 0x00000002 after NOP. -/
theorem test_nop_completes : after (exec .nop (busy 0 [])) (fun t => statusWord t.status) = some 2 := by decide

theorem test_subbytes_issue : after (step (State.reset.withFetchWord 32 0x01)) (fun t => t.status.busy) = some true := by
  decide

/-- R132's example. -/
theorem test_subbytes_known_answer :
    after (exec .subbytes { busy 1 [] with st := hexBlock 0x193de3bea0f4e22b9ac68d2ae9f84808 }) (fun t => t.st) =
      some (hexBlock 0xd42711aee0bf98f1b8b45de51e415230) := by decide +kernel

theorem test_shiftrows_issue : after (step (State.reset.withFetchWord 32 0x02)) (fun t => t.status.busy) = some true := by
  decide

/-- R134's example. -/
theorem test_shiftrows_known_answer :
    after (exec .shiftrows { busy 2 [] with st := hexBlock 0xd42711aee0bf98f1b8b45de51e415230 }) (fun t => t.st) =
      some (hexBlock 0xd4bf5d30e0b452aeb84111f11e2798e5) := by decide +kernel

theorem test_mixcolumns_issue : after (step (State.reset.withFetchWord 32 0x03)) (fun t => t.status.busy) = some true := by
  decide

/-- R137's example. -/
theorem test_mixcolumns_known_answer :
    after (exec .mixcolumns { busy 3 [] with st := hexBlock 0xd4bf5d30e0b452aeb84111f11e2798e5 }) (fun t => t.st) =
      some (hexBlock 0x046681e5e0cb199a48f8d37a2806264c) := by decide +kernel

/-- Without a key set ADDROUNDKEY is refused: ERR_NOKEY, `ECMD` the word (R97, R204). -/
theorem test_addroundkey_needs_keys :
    after (step (State.reset.withFetchWord 32 0x0A04)) (fun t => (statusWord t.status, t.ecmd)) =
      some (0x00000208, 0x00000A04) := by decide

/-- R139's example. -/
theorem test_addroundkey_known_answer :
    after
      (exec (.addroundkey 0)
        { busy 4 [] with
          st := hexBlock 0x3243f6a8885a308d313198a2e0370734
          rk := State.reset.rk.set 0 (hexBlock 0x2b7e151628aed2a6abf7158809cf4f3c) })
      (fun t => t.st) = some (hexBlock 0x193de3bea0f4e22b9ac68d2ae9f84808) := by decide +kernel

theorem test_keyexp_issue : after (step (State.reset.withFetchWord 32 0x05)) (fun t => t.status.busy) = some true := by
  decide

/-- R154's example: `RK[1]`, `RK[10]`, `KEYVALID`. -/
theorem test_keyexp_known_answer :
    after (exec .keyexp { busy 5 [] with key := hexBlock 0x2b7e151628aed2a6abf7158809cf4f3c })
        (fun t => (t.rk[1], t.rk[10], t.status.keyValid)) =
      some (hexBlock 0xa0fafe1788542cb123a339392a6c7605, hexBlock 0xd014f9a8c9ee2589e13f0cc8b6630ca6, true) := by
  decide +kernel

theorem test_encrypt_needs_keys :
    after (step (State.reset.withFetchWord 32 0x06)) (fun t => (statusWord t.status, t.ecmd)) =
      some (0x00000208, 0x00000006) := by decide

/-- R156's example, the known answer of CV. -/
theorem test_encrypt_known_answer :
    after
      (exec .encrypt
        { busy 6 [] with
          st := hexBlock 0x3243f6a8885a308d313198a2e0370734
          rk := keyExpansion (hexBlock 0x2b7e151628aed2a6abf7158809cf4f3c) })
      (fun t => t.st) = some (hexBlock 0x3925841d02dc09fbdc118597196a0b32) := by decide +kernel

theorem test_gfmul_issue : after (step (State.reset.withFetchWord 32 0x10)) (fun t => t.status.busy) = some true := by
  decide

/-- R123's example. -/
theorem test_gfmul_known_answer :
    after (exec .gfmul { busy 0x10 [] with gfa := 0x57, gfb := 0x83 }) (fun t => t.gfp) = some 0xC1 := by decide

/-- A zero modulus is refused: ERR_MODZERO (95_test_vectors.md section 4.3). -/
theorem test_modpow_needs_modulus :
    after (step (State.reset.withFetchWord 32 0x20)) (fun t => (statusWord t.status, t.ecmd)) =
      some (0x00000308, 0x00000020) := by decide

/-- 95_test_vectors.md section 4.3, the last row of the table of MODPOW. -/
theorem test_modpow_known_answer :
    after (exec .modpow { busy 0x20 [] with mpb := 0x12345678, mpe := 0x9ABCDEF0, mpm := 0x0FEDCBA9 }) (fun t => t.mpr) =
      some 0x06D3A06D := by decide +kernel

/-- `MPB` = `MPM`: ERR_RANGE (95_test_vectors.md section 4.4). -/
theorem test_rsaenc_range :
    after (exec .rsaenc { idle [] with mpb := 3233, mpe := 17, mpm := 3233 }) (fun t => (statusWord t.status, t.ecmd)) =
      some (0x00000408, 0x00000021) := by decide

/-- R175's example. -/
theorem test_rsaenc_known_answer :
    after (exec .rsaenc { busy 0x21 [] with mpb := 65, mpe := 17, mpm := 3233 }) (fun t => t.mpr) = some 2790 := by
  decide +kernel

/-! ## The bus -/

/-- R66's example, first word, read over the bus at 0x10. -/
theorem test_read_st0 :
    after (step { idle [.read 0x10 4] with st := hexBlock 0x3243f6a8885a308d313198a2e0370734 }) (fun t => t.replies) =
      some [.value 0xA8F64332] := by decide +kernel

/-- A write of `GFA` keeps bits [7:0] (R67). -/
theorem test_write_gfa : after (step (idle [.write 0x30 4 0x12345657])) (fun t => t.gfa) = some 0x57 := by decide

/-- The last word of the window is column 3 of round key 10 (R61). -/
theorem test_last_word_of_window : targetAt 0xFC = .rk 10 3 ∧ targetAt 0x50 = .rk 0 0 ∧ targetAt 0x60 = .rk 1 0 := by decide

/-- A byte access returns `BusError`, busy or not, and sets no flag (R63). -/
theorem test_byte_access_refused :
    after (step (busy 0 [.write 0x10 1 0])) (fun t => (t.replies, t.status.ovr)) = some ([.busError], false) := by decide

/-- A completion with an illegal word in flight, which no reachable state has, is the model's one fault (log entry 4). -/
theorem test_illegal_in_flight : step (busy 7 []) = .fault (.illegalInFlight 7) := by rfl

/-! ## Witnesses: for each statement with hypotheses, a state and operands that meet them -/

theorem test_witness_IllegalWordRaisesError :
    (idle [.write 0x00 4 0x80000000]).inbox = .write 0x00 4 0x80000000 :: [] ∧
    (idle [.write 0x00 4 0x80000000]).status.busy = false ∧ (idle [.write 0x00 4 0x80000000]).status.errf = false ∧
    (0x80000000 : Word).extractLsb' 12 20 ≠ 0 ∧ (0x00001000 : Word).extractLsb' 12 20 ≠ 0 ∧
    ((0x00000B04 : Word).extractLsb' 0 8 = 0x04 ∧ 11 ≤ ((0x00000B04 : Word).extractLsb' 8 4).toNat) ∧
    ((0x00000F04 : Word).extractLsb' 0 8 = 0x04 ∧ 11 ≤ ((0x00000F04 : Word).extractLsb' 8 4).toNat) ∧
    ((0x00000100 : Word).extractLsb' 0 8 ≠ 0x04 ∧ (0x00000100 : Word).extractLsb' 8 4 ≠ 0) ∧
    (0x00000007 : Word).extractLsb' 0 8 ∉
      ([0x00, 0x01, 0x02, 0x03, 0x04, 0x05, 0x06, 0x10, 0x20, 0x21] : List Byte) ∧
    (0x000000FF : Word).extractLsb' 0 8 ∉
      ([0x00, 0x01, 0x02, 0x03, 0x04, 0x05, 0x06, 0x10, 0x20, 0x21] : List Byte) := by decide

theorem test_witness_CommandWriteRunsDecodedCommand :
    (idle [.write 0x00 4 0x00000A04]).inbox = .write 0x00 4 0x00000A04 :: [] ∧
    (idle [.write 0x00 4 0x00000A04]).status.busy = false ∧ (idle [.write 0x00 4 0x00000A04]).status.errf = false ∧
    decode 0x00000A04 = .ok (.addroundkey 10) := by decide

theorem test_witness_CompletionRunsCommandInFlight :
    (busy 6 []).status.busy = true ∧ decode (busy 6 []).ifc = .ok .encrypt ∧ (busy 6 []).inbox = [] ∧
    (busy 6 [.complete, .reset]).inbox = .complete :: [.reset] := by decide

theorem test_witness_PlacedWordRunsNext : decodeTableWord 32 0x00000A04 = some (.addroundkey 10) := by decide

/-- Accesses not admitted by their size, by their offset, at the end of the window; and two admitted ones. -/
theorem test_witness_UnadmittedAccessChangesNothing :
    (idle [.read 0x10 1]).inbox = .read 0x10 1 :: [] ∧ ¬ (1 = 4 ∧ (0x10 : Offset).toNat % 4 = 0) ∧
    (busy 0 [.write 0xFE 4 5]).inbox = .write 0xFE 4 5 :: [] ∧ ¬ (4 = 4 ∧ (0xFE : Offset).toNat % 4 = 0) ∧
    ¬ (8 = 4 ∧ (0xFC : Offset).toNat % 4 = 0) ∧ ((0x00 : Offset).toNat % 4 = 0) ∧ ((0xFC : Offset).toNat % 4 = 0) ∧
    after (step (idle [.read 0xFC 4])) (fun t => t.replies) = some [.value 0] := by decide +kernel

/-- Every row of R61 at its first and last word. -/
theorem test_witness_IdleReadReturnsRegister :
    (∀ off ∈ ([0x00, 0x04, 0x08, 0x0C, 0x10, 0x1C, 0x20, 0x2C, 0x30, 0x34, 0x38, 0x3C, 0x40, 0x44, 0x48, 0x4C, 0x50,
        0xFC] : List Offset),
      (idle [.read off 4]).inbox = .read off 4 :: [] ∧ (idle [.read off 4]).status.busy = false ∧ off.toNat % 4 = 0) ∧
    (0x1C : Offset).toNat = 0x10 + 4 * (3 : Fin 4).val ∧ (0x20 : Offset).toNat = 0x20 + 4 * (0 : Fin 4).val ∧
    (0x50 : Offset).toNat = 0x50 + 16 * (0 : Fin 11).val + 4 * (0 : Fin 4).val ∧
    (0xFC : Offset).toNat = 0x50 + 16 * (10 : Fin 11).val + 4 * (3 : Fin 4).val := by decide

/-- NOP in flight is consistent, whatever is to come. -/
theorem test_busy_consistent (evs : List Event) : Consistent (busy 0 evs) := by
  constructor <;> simp [busy, State.reset]
  exact ⟨.nop, by decide, rfl⟩

/-- So is the state after reset, whatever is to come. -/
theorem test_idle_consistent (evs : List Event) : Consistent (idle evs) := by
  constructor <;> simp [idle, State.reset]

theorem test_witness_BusyReadExactForControlWords :
    (∀ off ∈ ([0x00, 0x04, 0x08, 0x0C, 0x10, 0x3C, 0xFC] : List Offset),
      (busy 0 [.read off 4]).inbox = .read off 4 :: [] ∧ (busy 0 [.read off 4]).status.busy = true ∧
      off.toNat % 4 = 0) ∧ Consistent (busy 0 [.read 0x04 4]) :=
  ⟨by decide, test_busy_consistent _⟩

theorem test_witness_BusyDataReadIsFreshDraw :
    ∀ off ∈ ([0x10, 0x2C, 0x38, 0x40, 0x4C, 0x50, 0xFC] : List Offset),
      (busy 0 [.read off 4]).inbox = .read off 4 :: [] ∧ (busy 0 [.read off 4]).status.busy = true ∧
      off.toNat % 4 = 0 ∧ 0x10 ≤ off.toNat ∧ off ≠ 0x3C := by decide

theorem test_witness_BusyWriteIsDropped :
    ∀ off ∈ ([0x00, 0x04, 0x20, 0xFC] : List Offset),
      (busy 0 [.write off 4 7]).inbox = .write off 4 7 :: [] ∧ (busy 0 [.write off 4 7]).status.busy = true ∧
      off.toNat % 4 = 0 := by decide

theorem test_witness_IdleWriteByTarget :
    ∀ off ∈ ([0x00, 0x04, 0x08, 0x0C, 0x10, 0x1C, 0x20, 0x2C, 0x30, 0x34, 0x38, 0x3C, 0x40, 0x44, 0x48, 0x4C, 0x50,
        0xFC] : List Offset),
      (idle [.write off 4 7]).inbox = .write off 4 7 :: [] ∧ (idle [.write off 4 7]).status.busy = false ∧
      off.toNat % 4 = 0 := by decide

theorem test_witness_StatusWriteClearsChosenFlags :
    (failed [.write 0x04 4 0x0000001A]).inbox = .write 0x04 4 0x0000001A :: [] ∧
    (failed [.write 0x04 4 0x0000001A]).status.busy = false := by decide

theorem test_witness_KeyWriteInvalidatesRoundKeys :
    ∀ off ∈ ([0x20, 0x24, 0x28, 0x2C] : List Offset),
      (idle [.write off 4 0]).inbox = .write off 4 0 :: [] ∧ (idle [.write off 4 0]).status.busy = false ∧
      off.toNat % 4 = 0 ∧ 0x20 ≤ off.toNat ∧ off.toNat < 0x30 ∧ (idle [.write off 4 0]).status.keyValid = false ∧
      (idle [.write off 4 0]).status.errf = false ∧ (10 : BitVec 4).toNat ≤ 10 := by
  decide

/-- The second clause's: a step that sets `KEYVALID`. -/
theorem test_witness_KeyWriteInvalidatesRoundKeys_until_keyexp :
    (busy 5 []).status.keyValid = false ∧ ∃ t, step (busy 5 []) = .next t ∧ t.status.keyValid = true :=
  ⟨rfl, exists_next (a := true) (by decide +kernel)⟩

theorem test_witness_WrittenWordReadsBack :
    (∀ off ∈ ([0x00, 0x10, 0x2C, 0x30, 0x34, 0x40, 0x48, 0xFC] : List Offset),
      (idle [.write off 4 7, .read off 4]).inbox = .write off 4 7 :: .read off 4 :: [] ∧
      (idle [.write off 4 7, .read off 4]).status.busy = false ∧ off.toNat % 4 = 0) ∧
    ∀ off ∈ ([0x10, 0x2C, 0x40, 0x48] : List Offset),
      (0x10 ≤ off.toNat ∧ off.toNat < 0x30) ∨ (0x40 ≤ off.toNat ∧ off.toNat < 0x4C) := by decide

/-- Every branch of R97: busy, error standing, illegal, each check failing, started. -/
theorem test_witness_IssueFollowsTheRule :
    (busy 0 [.write 0x00 4 0]).inbox = .write 0x00 4 0 :: [] ∧ (failed [.write 0x00 4 0]).status.errf = true ∧
    decode 0x00000007 = .error .unassignedOpcode ∧ preconditionFailure .encrypt (idle []) = some .noKey ∧
    preconditionFailure .modpow (idle []) = some .modZero ∧
    preconditionFailure .rsaenc { idle [] with mpm := 5, mpb := 5 } = some .range ∧
    preconditionFailure .rsaenc { idle [] with mpm := 5, mpb := 4 } = none := by decide

theorem test_witness_CommandInFlightEnds :
    Consistent (busy 0 [.read 0x04 4, .read 0x04 4]) ∧ (busy 0 [.read 0x04 4, .read 0x04 4]).status.busy = true :=
  ⟨test_busy_consistent _, rfl⟩

theorem test_witness_CompletionClearsBusyAndSetsDone :
    (idle [.complete]).inbox = .complete :: [] ∧ (idle [.complete]).status.busy = false ∧
    (busy 5 [.complete]).inbox = .complete :: [] ∧ (busy 5 [.complete]).status.busy = true ∧
    decode (busy 5 [.complete]).ifc = .ok .keyexp := by decide

theorem test_witness_KeyCommandsNeedKeyValid :
    (idle []).status.busy = false ∧ (idle []).status.errf = false ∧ (idle []).status.keyValid = false ∧
    (0 : BitVec 4).toNat ≤ 10 ∧ (10 : BitVec 4).toNat ≤ 10 := by decide

theorem test_witness_ModularCommandsCheckOperands :
    (idle []).status.busy = false ∧ (idle []).status.errf = false ∧ (idle []).mpm = 0 ∧
    ({ idle [] with mpm := 1, mpb := 1 } : State).mpm ≠ 0 ∧
    ({ idle [] with mpm := 1, mpb := 1 } : State).mpm.toNat ≤ ({ idle [] with mpm := 1, mpb := 1 } : State).mpb.toNat := by
  decide

theorem test_witness_ErrorStateIgnoresCommands :
    (failed [.write 0x00 4 0]).status.errf = true ∧ (failed [.write 0x00 4 0]).status.busy = false ∧
    (failed [.write 0x00 4 0]).inbox = .write 0x00 4 0 :: [] ∧ (failed [.read 0x08 4]).inbox = .read 0x08 4 :: [] ∧
    (failed [.write 0xFC 4 0]).inbox = .write 0xFC 4 0 :: [] ∧ (0xFC : Offset).toNat % 4 = 0 ∧ (0xFC : Offset) ≠ 0x00 := by
  decide

theorem test_witness_ErrorReturnClearsTheError :
    (failed [.write 0x04 4 8]).inbox = .write 0x04 4 0x00000008 :: [] ∧ (failed [.write 0x04 4 8]).status.busy = false ∧
    (0xFFFFFFFF : Word).getLsbD 3 = true ∧ (failed [.reset]).inbox = .reset :: [] := by decide

theorem test_witness_ResetEventClearsEverything : (busy 6 [.reset, .complete]).inbox = .reset :: [.complete] := by decide

theorem test_witness_NopGoesThroughIssueAndCompletion :
    (idle []).status.busy = false ∧ (idle []).status.errf = false ∧ (idle []).status.ovr = false ∧
    (idle []).status.ecode = 0 ∧ (busy 0 [.write 0x00 4 0]).status.busy = true ∧
    (busy 0 [.write 0x00 4 0]).inbox = .write 0x00 4 0 :: [] ∧ (failed []).status.busy = false ∧
    (failed []).status.errf = true := by decide

theorem test_witness_SubbytesSubstitutesEachByte : (busy 1 []).status.busy = true := by decide

theorem test_witness_ShiftrowsRotatesRowsLeft : (busy 2 []).status.busy = true := by decide

theorem test_witness_MixcolumnsMultipliesColumns : (busy 3 []).status.busy = true := by decide

theorem test_witness_AddroundkeyXorsRoundKey :
    (0 : BitVec 4).toNat ≤ 10 ∧ (10 : BitVec 4).toNat ≤ 10 ∧ (busy 0x0A04 []).status.busy = true := by decide

theorem test_witness_KeyexpExpandsTheKey : (busy 5 []).status.busy = true := by decide

theorem test_witness_RoundConstantsDouble : 1 ≤ 1 ∧ 1 ≤ 9 ∧ 9 ≤ 9 := by decide

theorem test_witness_KeyScheduleRecurrence :
    4 ≤ 4 ∧ 4 ≤ 43 ∧ 43 ≤ 43 ∧ 4 % 4 = 0 ∧ 43 % 4 ≠ 0 ∧
    keyWord State.reset.key 3 = keyWord State.reset.key (4 - 1) := by decide

/-- Two keys with the same round key 9: as the schedule can be run backwards, they are the same key. -/
theorem test_witness_RoundKeysGroupTheWords :
    (keyExpansion State.reset.key)[(9 : Fin 10).val] = (keyExpansion State.reset.key)[(9 : Fin 10).val] := rfl

/-- The states after each round, for any block and keys. -/
theorem test_witness_EncryptAppliesTheCipher :
    (busy 6 []).status.busy = true ∧
    ∃ S : Nat → Block, S 0 = addRoundKey (busy 6 []).st (busy 6 []).rk[0] ∧
      ∀ r : Fin 9, S (r.val + 1) =
        addRoundKey (mixColumns (shiftRows (subBytes (S r.val)))) (busy 6 []).rk[r.val + 1] := by
  refine ⟨rfl,
    fun n => Nat.rec (addRoundKey (busy 6 []).st (busy 6 []).rk[0])
      (fun m A => if h : m < 9 then addRoundKey (mixColumns (shiftRows (subBytes A))) (busy 6 []).rk[m + 1] else A) n,
    rfl, fun r => ?_⟩
  exact dif_pos r.isLt

theorem test_witness_GfmulStoresTheProduct :
    (idle []).status.busy = false ∧ (idle []).status.errf = false ∧ (busy 0x10 []).status.busy = true := by decide

theorem test_witness_GfmulFieldLaws : gfmul 0 0x83 = 0 ∧ gfmul 0x57 0 = 0 := by decide

theorem test_witness_ModpowLoopIsExact : (1 : Word) ≠ 0 ∧ (0xFFFFFFFF : Word) ≠ 0 := by decide

theorem test_witness_ModularCommandsStoreThePower :
    ({ busy 0x20 [] with mpm := 1 } : State).status.busy = true ∧ ({ busy 0x20 [] with mpm := 1 } : State).mpm ≠ 0 := by
  decide

theorem test_witness_ModpowCornerCases :
    1 < (2 : Word).toNat ∧ (1 : Word) ≠ 0 ∧ (3 : Word) % 2 = 1 := by decide

/-- The key set of CV's example (95_test_vectors.md section 4.1). -/
theorem test_witness_RsaRoundTrip :
    Nat.Prime 61 ∧ Nat.Prime 53 ∧ 61 ≠ 53 ∧ 17 * 2753 % ((61 - 1) * (53 - 1)) = 1 ∧ (3233 : Word).toNat = 61 * 53 ∧
    (17 : Word).toNat = 17 ∧ (2753 : Word).toNat = 2753 ∧ (65 : Word).toNat < (3233 : Word).toNat := by
  refine ⟨by norm_num, by norm_num, by decide, by decide, by decide, by decide, by decide, by decide⟩

/-- Each of the commands that write `ST` has a next state, at issue and at completion. -/
theorem test_witness_StateCommandsFrame :
    ∀ i ∈ [Instr.subbytes, .shiftrows, .mixcolumns, .encrypt, .addroundkey 0, .addroundkey 10],
      (∃ t, exec i (idle []) = .next t) ∧ ∃ t, exec i (busy 0 []) = .next t := by
  intro i hi
  have hw : i.wellFormed = true := by revert i; decide
  exact ⟨⟨_, exec_idle i (idle []) hw rfl⟩, _, exec_busy i (busy 0 []) hw rfl⟩

theorem test_witness_KeyexpFrame :
    (∃ t, exec .keyexp (idle []) = .next t) ∧ ∃ t, exec .keyexp (busy 5 []) = .next t :=
  ⟨⟨_, exec_idle .keyexp (idle []) rfl rfl⟩, _, exec_busy .keyexp (busy 5 []) rfl rfl⟩

theorem test_witness_GfmulFrame :
    (∃ t, exec .gfmul (idle []) = .next t) ∧ ∃ t, exec .gfmul (busy 0x10 []) = .next t :=
  ⟨⟨_, exec_idle .gfmul (idle []) rfl rfl⟩, _, exec_busy .gfmul (busy 0x10 []) rfl rfl⟩

theorem test_witness_ModularCommandsFrame :
    ∀ i ∈ [Instr.modpow, .rsaenc],
      (∃ t, exec i (idle []) = .next t) ∧ ∃ t, exec i { busy 0x20 [] with mpm := 5 } = .next t := by
  intro i hi
  have hw : i.wellFormed = true := by revert i; decide
  exact ⟨⟨_, exec_idle i (idle []) hw rfl⟩, _, exec_busy i { busy 0x20 [] with mpm := 5 } hw rfl⟩

theorem test_witness_NopFrame : (∃ t, exec .nop (idle []) = .next t) ∧ ∃ t, exec .nop (busy 0 []) = .next t :=
  ⟨⟨_, exec_idle .nop (idle []) rfl rfl⟩, _, exec_busy .nop (busy 0 []) rfl rfl⟩

/-- A consistent state with a step: the completion of NOP. -/
theorem test_witness_StepKeepsConsistent :
    Consistent (busy 0 [.complete]) ∧ ∃ t, step (busy 0 [.complete]) = .next t ∧ t.status.done = true :=
  ⟨test_busy_consistent _, exists_next (a := true) (by decide)⟩

theorem test_witness_ConsistentStateNeverStops : Consistent (idle []) ∧ Consistent (busy 0 []) :=
  ⟨test_idle_consistent _, test_busy_consistent _⟩

/-- A step that sets `BUSY`; a completion and a reset that clear it. -/
theorem test_witness_BusyWrittenOnlyByIssueCompletionReset :
    (idle [.write 0x00 4 0]).status.busy = false ∧ nextEvent (idle [.write 0x00 4 0]) = .write 0x00 4 0 ∧
    (idle [.write 0x00 4 0]).status.errf = false ∧ decode 0 = .ok .nop ∧
    preconditionFailure .nop (idle [.write 0x00 4 0]) = none ∧
    (∃ t, step (idle [.write 0x00 4 0]) = .next t ∧ t.status.busy = true) ∧
    (busy 0 [.complete]).status.busy = true ∧ (∃ t, step (busy 0 [.complete]) = .next t ∧ t.status.busy = false) ∧
    nextEvent (busy 0 [.complete]) = .complete ∧ (∃ t, step (busy 0 [.reset]) = .next t ∧ t.status.busy = false) ∧
    nextEvent (busy 0 [.reset]) = .reset :=
  ⟨rfl, rfl, rfl, by decide, rfl, exists_next (a := true) (by decide), rfl, exists_next (a := false) (by decide), rfl,
    exists_next (a := false) (by decide), rfl⟩

/-- The state after reset with `DONE` and the flags given set. -/
def Tests.flagged (evs : List Event) : State :=
  { idle evs with status := { State.reset.status with done := true, keyValid := true, ovr := true } }

/-- A completion sets `DONE`; an accepted `CMD` write, a `STATUS` write with bit 1 and a reset clear it. -/
theorem test_witness_DoneSetOnlyByCompletion :
    ((busy 0 []).status.done = false ∧ nextEvent (busy 0 []) = .complete ∧
      ∃ t, step (busy 0 []) = .next t ∧ t.status.done = true) ∧
    ∀ e ∈ ([.write 0x00 4 0, .write 0x04 4 2, .reset] : List Event),
      (flagged [e]).status.done = true ∧ (flagged [e]).status.busy = false ∧ (flagged [e]).status.errf = false ∧
      nextEvent (flagged [e]) = e ∧ after (step (flagged [e])) (fun t => t.status.done) = some false :=
  ⟨⟨rfl, rfl, exists_next (a := true) (by decide)⟩, by decide⟩

/-- A completion of KEYEXP sets `KEYVALID`; a write to the first and the last word of `KEY` and a reset clear it. -/
theorem test_witness_KeyValidSetOnlyByKeyexp :
    ((busy 5 []).status.keyValid = false ∧ nextEvent (busy 5 []) = .complete ∧ decode (busy 5 []).ifc = .ok .keyexp ∧
      ∃ t, step (busy 5 []) = .next t ∧ t.status.keyValid = true) ∧
    ∀ e ∈ ([.write 0x20 4 0, .write 0x2C 4 0, .reset] : List Event),
      (flagged [e]).status.keyValid = true ∧ (flagged [e]).status.busy = false ∧ nextEvent (flagged [e]) = e ∧
      after (step (flagged [e])) (fun t => t.status.keyValid) = some false :=
  ⟨⟨rfl, rfl, by decide, exists_next (a := true) (by decide +kernel)⟩, by decide⟩

/-- A dropped write sets `OVR`; a `STATUS` write with bit 4 and a reset clear it. -/
theorem test_witness_OvrRecordsDroppedWrites :
    (∃ t, exec .nop (idle []) = .next t ∧ t.status.busy = true) ∧
    ((busy 0 [.write 0xFC 4 0]).status.ovr = false ∧ nextEvent (busy 0 [.write 0xFC 4 0]) = .write 0xFC 4 0 ∧
      ∃ t, step (busy 0 [.write 0xFC 4 0]) = .next t ∧ t.status.ovr = true) ∧
    ∀ e ∈ ([.write 0x04 4 0x10, .reset] : List Event),
      (flagged [e]).status.ovr = true ∧ (flagged [e]).status.busy = false ∧ nextEvent (flagged [e]) = e ∧
      after (step (flagged [e])) (fun t => t.status.ovr) = some false :=
  ⟨exists_next (a := true) (by decide), ⟨rfl, rfl, exists_next (a := true) (by decide)⟩, by decide⟩

/-- KEYEXP of the zero key changes `RK`; a write changes `KEY`; a reset changes both. -/
theorem test_witness_KeyMaterialChangesOnlyByItsWriters :
    (∃ t, step (busy 5 []) = .next t ∧ decide (t.rk ≠ (busy 5 []).rk) = true) ∧
    ∃ t, step (idle [.write 0x2C 4 1]) = .next t ∧ decide (t.key ≠ (idle [.write 0x2C 4 1]).key) = true :=
  ⟨exists_next (a := true) (by decide +kernel), exists_next (a := true) (by decide +kernel)⟩

/-- Traffic of each kind, then the completion. -/
theorem test_witness_BusyTrafficCannotChangeTheResult :
    (busy 0x10 [.write 0x30 4 7, .read 0x38 4, .read 0x01 2, .complete]).status.busy = true ∧
    decode (busy 0x10 []).ifc = .ok .gfmul ∧
    (∀ e ∈ ([.write 0x30 4 7, .read 0x38 4, .read 0x01 2] : List Event), e.isTransaction = true) ∧
    (busy 0x10 [.write 0x30 4 7, .read 0x38 4, .read 0x01 2, .complete]).inbox =
      [.write 0x30 4 7, .read 0x38 4, .read 0x01 2] ++ .complete :: [] ∧
    ∃ u, exec .gfmul (busy 0x10 [.write 0x30 4 7, .read 0x38 4, .read 0x01 2, .complete]) = .next u :=
  ⟨rfl, by decide, by decide, rfl, _, exec_busy .gfmul _ rfl rfl⟩

theorem test_witness_EncryptEqualsThePrimitives :
    (flagged []).status.keyValid = true ∧ (flagged []).status.busy = false ∧ (flagged []).status.errf = false := by decide
end

section
/-! PROOFS. The family of 10_state.md: how `BUSY`, `DONE` and `OVR` change over one step (R32, R33, R36), and the state
after reset (R50). -/

namespace Sys2Proof.Machine

/-! ## A flag over one step -/

/-- How a flag moves over one step, from `old` to `new`: its setter takes place, or one of its clearers does, never both;
or neither does and it keeps its value. -/
inductive FlagStep (setter clearer : Prop) (old new : Bool) : Prop where
  | set (hs : setter) (hc : ¬ clearer) (value : new = true)
  | cleared (hs : ¬ setter) (hc : clearer) (value : new = false)
  | kept (hs : ¬ setter) (hc : ¬ clearer) (value : new = old)

namespace FlagStep

variable {setter clearer : Prop} {old new : Bool}

theorem eq_true (h : FlagStep setter clearer old new) (hs : setter) : new = true := by
  cases h with
  | set _ _ value => exact value
  | cleared hn _ _ => exact absurd hs hn
  | kept hn _ _ => exact absurd hs hn

theorem eq_false (h : FlagStep setter clearer old new) (hc : clearer) : new = false := by
  cases h with
  | set _ hn _ => exact absurd hc hn
  | cleared _ _ value => exact value
  | kept _ hn _ => exact absurd hc hn

theorem setter_of_rise (h : FlagStep setter clearer old new) (hold : old = false) (hnew : new = true) : setter := by
  cases h with
  | set hs _ _ => exact hs
  | cleared _ _ value => simp [value] at hnew
  | kept _ _ value => simp [value, hold] at hnew

theorem clearer_of_fall (h : FlagStep setter clearer old new) (hold : old = true) (hnew : new = false) : clearer := by
  cases h with
  | set _ _ value => simp [value] at hnew
  | cleared _ hc _ => exact hc
  | kept _ _ value => simp [value, hold] at hnew

end FlagStep

/-! ## Facts about events and targets -/

/-- An event other than the core's turn stands at the head of the list (R254). -/
theorem inbox_eq_cons_of_nextEvent {s : State} {e : Event} (h : nextEvent s = e) (he : e ≠ .complete) :
    s.inbox = e :: s.inbox.tail := by
  cases hi : s.inbox with
  | nil => simp [nextEvent, hi] at h; exact absurd h.symm he
  | cons a rest => simpa [nextEvent, hi] using h

theorem writeStatus_done_of_bit {v : Word} (s : State) (bit : v.getLsbD 1 = true) :
    (writeStatus v s).status.done = false := by
  rw [writeStatus_status, writeOneToClear_done, bit, Bool.not_true, Bool.and_false]

theorem writeStatus_ovr_of_bit {v : Word} (s : State) (bit : v.getLsbD 4 = true) :
    (writeStatus v s).status.ovr = false := by
  rw [writeStatus_status, writeOneToClear_ovr, bit, Bool.not_true, Bool.and_false]

/-- A register write keeps `DONE`, unless it writes bit 1 to `STATUS` (R67, R70). -/
theorem writeTarget_done (a : Target) (v : Word) (s : State) (h : ¬ (a = .status ∧ v.getLsbD 1 = true)) :
    (writeTarget a v s).status.done = s.status.done := by
  cases a with
  | status =>
    have bit : v.getLsbD 1 = false := by simpa using h
    rw [writeTarget, writeStatus_status, writeOneToClear_done, bit, Bool.not_false, Bool.and_true]
  | _ => rfl

/-- A register write keeps `OVR`, unless it writes bit 4 to `STATUS` (R67, R70). -/
theorem writeTarget_ovr (a : Target) (v : Word) (s : State) (h : ¬ (a = .status ∧ v.getLsbD 4 = true)) :
    (writeTarget a v s).status.ovr = s.status.ovr := by
  cases a with
  | status =>
    have bit : v.getLsbD 4 = false := by simpa using h
    rw [writeTarget, writeStatus_status, writeOneToClear_ovr, bit, Bool.not_false, Bool.and_true]
  | _ => rfl

/-! ## `BUSY` (R32) -/

/-- The next event starts a command: a `CMD` write, accepted, of a legal word whose preconditions hold (R97). -/
def StartsCommand (s : State) : Prop :=
  ∃ v i, nextEvent s = .write 0x00 4 v ∧ s.status.busy = false ∧ s.status.errf = false ∧ decode v = .ok i ∧
    preconditionFailure i s = none

/-- The next event leaves no command in flight: the core's turn or a reset (R98, R240). -/
def EndsCommand (s : State) : Prop := nextEvent s = .complete ∨ nextEvent s = .reset

theorem step_of_startsCommand {s : State} (h : StartsCommand s) :
    ∃ w, step s = .next (startCommand w (reply .ok (takeEvent s))) := by
  obtain ⟨v, i, event, busy, errf, decoded, checked⟩ := h
  have hw := wellFormed_of_decode v i decoded
  refine ⟨encode i, ?_⟩
  calc step s = commandWrite v (reply .ok (takeEvent s)) := by
        simp [step, event, handle, busWrite, admitted, idleWrite, targetAt, busy]
    _ = exec i (reply .ok (takeEvent s)) := by simp [commandWrite, runWord, errf, decoded]
    _ = .next (startCommand (encode i) (reply .ok (takeEvent s))) := by
        rw [exec_idle i _ hw (by simpa using busy)]
        simp [checked, issue_start, errf]

/-- `BUSY` over one step (R32). A raised error is told from a start by `step_of_startsCommand`. -/
theorem step_busy {s t : State} (h : step s = .next t) :
    FlagStep (StartsCommand s) (EndsCommand s) s.status.busy t.status.busy := by
  by_cases hs : StartsCommand s
  · obtain ⟨w, hw⟩ := step_of_startsCommand hs
    cases hw.symm.trans h
    have ⟨v, i, event, _⟩ := hs
    exact .set hs (by simp [EndsCommand, event]) rfl
  · cases step_kind s t h with
    | quiet r d event turn _ result =>
      subst result
      by_cases hc : EndsCommand s
      · exact .cleared hs hc (turn (hc.resolve_right event))
      · exact .kept hs hc rfl
    | dropped off v event _ _ result => exact .kept hs (by simp [EndsCommand, event]) (by simp [result])
    | started v i event busy errf decoded checked _ =>
      exact absurd ⟨v, i, event, busy, errf, decoded, checked⟩ hs
    | raised v w code event _ _ result => exact .kept hs (by simp [EndsCommand, event]) (by simp [result])
    | written off v event _ _ _ result => exact .kept hs (by simp [EndsCommand, event]) (by simp [result])
    | completed i event _ _ result => exact .cleared hs (.inl event) (by simp [result])
    | reset event result => exact .cleared hs (.inr event) (by simp [result, State.reset])

/-- Settles O54, from how `BUSY` moves over one step. -/
theorem busyWrittenOnlyByIssueCompletionReset : Obligations.BusyWrittenOnlyByIssueCompletionReset := by
  intro s t h
  have flag := step_busy h
  refine ⟨fun hold hnew => ?_, fun v i event busy errf decoded checked =>
    flag.eq_true ⟨v, i, event, busy, errf, decoded, checked⟩, flag.clearer_of_fall, fun _ => flag.eq_false⟩
  obtain ⟨v, i, event, -, errf, decoded, checked⟩ := flag.setter_of_rise hold hnew
  exact ⟨v, i, _, inbox_eq_cons_of_nextEvent event (by simp), errf, decoded, checked⟩

/-! ## `DONE` (R33) -/

/-- The next event completes the command in flight (R98). -/
def Completes (s : State) : Prop := s.status.busy = true ∧ nextEvent s = .complete

/-- The three kinds of event that leave `DONE`=0 (R33). -/
def ClearsDone (s : State) : Prop :=
  (∃ v, nextEvent s = .write 0x00 4 v ∧ s.status.busy = false ∧ s.status.errf = false) ∨
  (∃ v, nextEvent s = .write 0x04 4 v ∧ s.status.busy = false ∧ v.getLsbD 1 = true) ∨
  nextEvent s = .reset

/-- `DONE` over one step (R33). -/
theorem step_done {s t : State} (h : step s = .next t) :
    FlagStep (Completes s) (ClearsDone s) s.status.done t.status.done := by
  cases step_kind s t h with
  | quiet r d event turn write result =>
    refine .kept (fun ⟨busy, complete⟩ => by simp [turn complete] at busy) ?_ (by simp [result])
    rintro (⟨v, e, _, errf⟩ | ⟨v, e, _⟩ | e)
    · simp [(write _ v e rfl).2.2] at errf
    · simpa using (write _ v e rfl).1
    · exact event e
  | dropped off v event _ busy result =>
    exact .kept (by simp [Completes, event]) (by simp [ClearsDone, event, busy]) (by simp [result])
  | started v i event busy errf _ _ result =>
    exact .cleared (by simp [Completes, event]) (.inl ⟨v, event, busy, errf⟩) (by simp [result])
  | raised v w code event busy errf result =>
    exact .cleared (by simp [Completes, event]) (.inl ⟨v, event, busy, errf⟩) (by simp [result])
  | written off v event aligned busy target result =>
    have notCmd : off ≠ 0x00 := by rintro rfl; exact target rfl
    have hs : ¬ Completes s := by simp [Completes, event]
    by_cases hv : off = 0x04 ∧ v.getLsbD 1 = true
    · obtain ⟨rfl, bit⟩ := hv
      exact .cleared hs (.inr (.inl ⟨v, event, busy, bit⟩)) (by rw [result]; exact writeStatus_done_of_bit _ bit)
    · refine .kept hs ?_ ?_
      · rintro (⟨v', e, _⟩ | ⟨v', e, _, bit⟩ | e) <;> cases event.symm.trans e
        · exact notCmd rfl
        · exact hv ⟨rfl, bit⟩
      · rw [result, writeTarget_done _ _ _ fun ⟨ht, bit⟩ => hv ⟨targetAt_eq_status off aligned ht, bit⟩]
        rfl
  | completed i event busy _ result =>
    exact .set ⟨busy, event⟩ (by simp [ClearsDone, event]) (by simp [result])
  | reset event result =>
    exact .cleared (by simp [Completes, event]) (.inr (.inr event)) (by simp [result, State.reset])

/-- Settles O55, from how `DONE` moves over one step. -/
theorem doneSetOnlyByCompletion : Obligations.DoneSetOnlyByCompletion := by
  intro s t h
  have flag := step_done h
  exact ⟨flag.setter_of_rise, fun busy event => flag.eq_true ⟨busy, event⟩,
    fun v event busy errf => flag.eq_false (.inl ⟨v, event, busy, errf⟩),
    fun v event busy bit => flag.eq_false (.inr (.inl ⟨v, event, busy, bit⟩)),
    fun event => flag.eq_false (.inr (.inr event)), flag.clearer_of_fall⟩

/-! ## `OVR` (R36) -/

/-- The next event is an admitted write that `BUSY`=1 drops (R68). -/
def DropsWrite (s : State) : Prop :=
  ∃ off v, nextEvent s = .write off 4 v ∧ s.status.busy = true ∧ off.toNat % 4 = 0

/-- The two kinds of event that leave `OVR`=0 (R36). -/
def ClearsOvr (s : State) : Prop :=
  (∃ v, nextEvent s = .write 0x04 4 v ∧ s.status.busy = false ∧ v.getLsbD 4 = true) ∨ nextEvent s = .reset

/-- `OVR` over one step (R36). -/
theorem step_ovr {s t : State} (h : step s = .next t) :
    FlagStep (DropsWrite s) (ClearsOvr s) s.status.ovr t.status.ovr := by
  cases step_kind s t h with
  | quiet r d event _ write result =>
    refine .kept ?_ ?_ (by simp [result])
    · rintro ⟨off, v, e, busy, aligned⟩
      simp [(write off v e aligned).2.1] at busy
    · rintro (⟨v, e, _⟩ | e)
      · simpa using (write _ v e rfl).1
      · exact event e
  | dropped off v event aligned busy result =>
    exact .set ⟨off, v, event, busy, aligned⟩ (by simp [ClearsOvr, event, busy]) (by simp [result])
  | started v i event busy _ _ _ result =>
    exact .kept (by simp [DropsWrite, busy]) (by simp [ClearsOvr, event]) (by simp [result])
  | raised v w code event busy _ result =>
    exact .kept (by simp [DropsWrite, busy]) (by simp [ClearsOvr, event]) (by simp [result])
  | written off v event aligned busy _ result =>
    have hs : ¬ DropsWrite s := by simp [DropsWrite, busy]
    by_cases hv : off = 0x04 ∧ v.getLsbD 4 = true
    · obtain ⟨rfl, bit⟩ := hv
      exact .cleared hs (.inl ⟨v, event, busy, bit⟩) (by rw [result]; exact writeStatus_ovr_of_bit _ bit)
    · refine .kept hs ?_ ?_
      · rintro (⟨v', e, _, bit⟩ | e) <;> cases event.symm.trans e
        exact hv ⟨rfl, bit⟩
      · rw [result, writeTarget_ovr _ _ _ fun ⟨ht, bit⟩ => hv ⟨targetAt_eq_status off aligned ht, bit⟩]
        rfl
  | completed i event _ _ result =>
    exact .kept (by simp [DropsWrite, event]) (by simp [ClearsOvr, event]) (by simp [result])
  | reset event result =>
    exact .cleared (by simp [DropsWrite, event]) (.inr event) (by simp [result, State.reset])

/-- `s` with the flag `OVR` at `b`. -/
def setOvr (b : Bool) (s : State) : State := { s with status := { s.status with ovr := b } }

@[simp] theorem setOvr_busy (b : Bool) (s : State) : (setOvr b s).status.busy = s.status.busy := rfl

/-- No precondition reads `OVR` (R36, R97). -/
@[simp] theorem preconditionFailure_setOvr (i : Instr) (b : Bool) (s : State) :
    preconditionFailure i (setOvr b s) = preconditionFailure i s := by
  cases i <;> rfl

/-- No command's effect reads `OVR` or writes it (R26, R36). -/
@[simp] theorem commandEffect_setOvr (i : Instr) (b : Bool) (s : State) :
    commandEffect i (setOvr b s) = setOvr b (commandEffect i s) := by
  cases i with
  | addroundkey r => simp only [commandEffect]; split <;> rfl
  | _ => rfl

@[simp] theorem finishCommand_setOvr (b : Bool) (s : State) :
    finishCommand (setOvr b s) = setOvr b (finishCommand s) := rfl

/-- An issue neither reads `OVR` nor writes it (R36, R97). -/
@[simp] theorem issue_setOvr (w : Word) (failure : Option ErrCode) (b : Bool) (s : State) :
    issue w failure (setOvr b s) = setOvr b (issue w failure s) := by
  cases he : s.status.errf with
  | true => rw [issue_errf w failure s he, issue_errf w failure (setOvr b s) he]
  | false =>
    cases failure with
    | none => rw [issue_start w s he, issue_start w (setOvr b s) he]; rfl
    | some code => rw [issue_raise w code s he, issue_raise w code (setOvr b s) he]; rfl

/-- With another value of `OVR`, a command does the same (R36). -/
theorem exec_setOvr {i : Instr} {s t : State} (b : Bool) (h : exec i s = .next t) :
    exec i (setOvr b s) = .next (setOvr b t) := by
  cases hw : i.wellFormed with
  | true =>
    cases hb : s.status.busy with
    | true =>
      rw [exec_busy i s hw hb] at h
      cases h
      simp [exec_busy i (setOvr b s) hw hb]
    | false =>
      rw [exec_idle i s hw hb] at h
      cases h
      simp [exec_idle i (setOvr b s) hw hb]
  | false =>
    rw [exec_illFormed i s hw] at h
    rw [exec_illFormed i (setOvr b s) hw]
    rcases illegalCommand_cases (encode i) s with ⟨hb, e⟩ | ⟨_, e⟩
    · rw [e] at h
      cases h
      simp [illegalCommand, hb]
    · simp [e] at h

/-- Settles O57, from how `OVR` moves over one step and from `exec_setOvr`. -/
theorem ovrRecordsDroppedWrites : Obligations.OvrRecordsDroppedWrites := by
  refine ⟨fun s t h => ?_, fun i s t b h => exec_setOvr b h⟩
  have flag := step_ovr h
  exact ⟨fun off v event busy aligned => flag.eq_true ⟨off, v, event, busy, aligned⟩, flag.setter_of_rise,
    fun v event busy bit => flag.eq_false (.inl ⟨v, event, busy, bit⟩), fun event => flag.eq_false (.inr event),
    flag.clearer_of_fall⟩

/-! ## The state after reset (R50) -/

/-- Settles O27: the byte arrays are constant vectors, the other fields are literals. -/
theorem resetStateIsAllZero : Obligations.ResetStateIsAllZero := by
  refine ⟨fun i => ⟨?_, ?_⟩, fun r i => ?_, rfl, rfl, rfl, rfl, rfl, rfl, rfl, rfl, rfl, rfl, rfl, rfl, rfl, rfl⟩
  all_goals simp [State.reset]

end Sys2Proof.Machine
end

section
/-! PROOFS. The family of 20_memory.md: admission (R63), reads while `BUSY`=0 (R64), writes while `BUSY`=0 and while
`BUSY`=1 (R67, R68), writes to `KEY` (R69) and to `STATUS` (R70). -/

namespace Sys2Proof.Machine

/-! ## The register map (R61) -/

theorem columnOf_eq {off : Offset} {k : Fin 4} (h : off.toNat / 4 % 4 = k.val) : columnOf off = k := Fin.ext h

theorem targetAt_eq_st_columnOf {off : Offset} (hl : 0x10 ≤ off.toNat) (hu : off.toNat < 0x20) :
    targetAt off = .st (columnOf off) := by
  simp (disch := omega) only [targetAt, if_neg, if_pos]

theorem targetAt_eq_key_columnOf {off : Offset} (hl : 0x20 ≤ off.toNat) (hu : off.toNat < 0x30) :
    targetAt off = .key (columnOf off) := by
  simp (disch := omega) only [targetAt, if_neg, if_pos]

theorem targetAt_eq_rk_columnOf {off : Offset} (hl : 0x50 ≤ off.toNat) :
    targetAt off = .rk ⟨(off.toNat - 0x50) / 16, by have := off.isLt; omega⟩ (columnOf off) := by
  simp (disch := omega) only [targetAt, if_neg]

theorem targetAt_st_word {off : Offset} {k : Fin 4} (h : off.toNat = 0x10 + 4 * k.val) : targetAt off = .st k := by
  rw [targetAt_eq_st_columnOf (by omega) (by omega), columnOf_eq (k := k) (by omega)]

theorem targetAt_key_word {off : Offset} {k : Fin 4} (h : off.toNat = 0x20 + 4 * k.val) : targetAt off = .key k := by
  rw [targetAt_eq_key_columnOf (by omega) (by omega), columnOf_eq (k := k) (by omega)]

theorem targetAt_rk_word {off : Offset} {r : Fin 11} {c : Fin 4} (h : off.toNat = 0x50 + 16 * r.val + 4 * c.val) :
    targetAt off = .rk r c := by
  have row : (off.toNat - 0x50) / 16 = r.val := by omega
  rw [targetAt_eq_rk_columnOf (by omega), columnOf_eq (k := c) (by omega)]
  simp only [row]

/-! ## Byte arrays as bus words (R66) -/

/-- The bytes of word `k` of an array are bytes `4k` to `4k + 3`, in order. -/
theorem packColumn_eq (A : Block) (k : Fin 4) :
    packColumn A k = littleEndianWord A[4 * k.val] A[4 * k.val + 1] A[4 * k.val + 2] A[4 * k.val + 3] := by
  simp [packColumn, cell, Nat.add_comm]

/-- A write to word `k` puts byte `j` of the bus word at index `4k + j`. -/
theorem getElem_setColumn_same (A : Block) (k : Fin 4) (v : Word) (j : Fin 4) :
    (setColumn A k v)[4 * k.val + j.val] = v.extractLsb' (8 * j.val) 8 := by
  have h : cell (setColumn A k v) j k = wordByte v j := by simp
  simpa only [cell, Nat.add_comm, wordByte] using h

/-- A write to word `k` leaves the bytes of the other words. -/
theorem getElem_setColumn_other (A : Block) (k : Fin 4) (v : Word) (i : Fin 16) (h : i.val / 4 ≠ k.val) :
    (setColumn A k v)[i] = A[i] := by
  have column : (⟨i.val / 4, by omega⟩ : Fin 4) ≠ k := fun e => h (congrArg Fin.val e)
  calc (setColumn A k v)[i] = cell (setColumn A k v) ⟨i.val % 4, by omega⟩ ⟨i.val / 4, by omega⟩ :=
        getElem_eq_cell _ i.val i.isLt
    _ = cell A ⟨i.val % 4, by omega⟩ ⟨i.val / 4, by omega⟩ := by rw [cell_setColumn, if_neg column]
    _ = A[i] := (getElem_eq_cell A i.val i.isLt).symm

/-! ## What a transaction answers -/

@[simp] theorem issue_replies (w : Word) (failure : Option ErrCode) (s : State) :
    (issue w failure s).replies = s.replies := by
  rcases issue_cases w failure s with ⟨_, e⟩ | ⟨_, _, e⟩ | ⟨_, _, _, e⟩ <;> rw [e] <;> rfl

/-- Issuing a command returns nothing to the host beyond the `Ok` of its write (R67, R97). -/
theorem commandWrite_replies {w : Word} {s t : State} (hb : s.status.busy = false)
    (h : commandWrite w s = .next t) : t.replies = s.replies := by
  rcases commandWrite_cases w s hb with ⟨_, e⟩ | ⟨_, _, _, e⟩ | ⟨_, _, _, e⟩ <;> cases e.symm.trans h <;> simp

theorem busWrite_admitted_replies {off : Offset} {n : Nat} {v : Word} {s t : State} (ha : admitted off n = true)
    (h : busWrite off n v s = .next t) : t.replies = .ok :: s.replies := by
  rcases busWrite_cases off n v s with ⟨hn, _⟩ | ⟨_, _, e⟩ | ⟨_, hb, _, e⟩ | ⟨_, _, _, e⟩
  · simp [ha] at hn
  · cases e.symm.trans h
    rfl
  · exact commandWrite_replies (s := reply .ok s) hb (e.symm.trans h)
  · cases e.symm.trans h
    simp

theorem busRead_admitted_replies {off : Offset} {n : Nat} (s : State) (ha : admitted off n = true) :
    ∃ v, (busRead off n s).replies = .value v :: s.replies := by
  rw [busRead, if_pos ha]
  exact ⟨_, rfl⟩

theorem busRead_unadmitted {off : Offset} {n : Nat} (s : State) (ha : ¬ admitted off n = true) :
    busRead off n s = reply .busError s := by
  rw [busRead, if_neg ha]

theorem busWrite_unadmitted {off : Offset} {n : Nat} (v : Word) (s : State) (ha : ¬ admitted off n = true) :
    busWrite off n v s = .next (reply .busError s) := by
  rw [busWrite, if_neg ha]

/-- While `BUSY`=0 an admitted read returns the word at its offset and draws nothing (R64). -/
theorem busRead_idle {off : Offset} {n : Nat} {s : State} (ha : admitted off n = true)
    (hb : s.status.busy = false) : busRead off n s = reply (.value (readTarget (targetAt off) s)) s := by
  simp [busRead, readValue, ha, hb]

/-- Settles O8: `BusError` is the answer of an access not admitted, and of no other. -/
theorem unadmittedAccessChangesNothing : Obligations.UnadmittedAccessChangesNothing := by
  intro s e rest off n v he hi
  rw [step_cons s e rest hi, ← admitted_iff]
  obtain rfl | rfl := he
  · refine ⟨fun ha => congrArg _ (busRead_unadmitted _ ha), fun ha t ht => ?_⟩
    cases ht
    obtain ⟨w, replies⟩ := busRead_admitted_replies { s with inbox := rest } ha
    simp [replies]
  · refine ⟨busWrite_unadmitted v _, fun ha t ht => ?_⟩
    simp [busWrite_admitted_replies ha ht]

/-- A step that takes an admitted read while `BUSY`=0 only records the reply (R64). -/
theorem step_read_idle {s : State} {off : Offset} {rest : List Event} (hi : s.inbox = .read off 4 :: rest)
    (hb : s.status.busy = false) (aligned : off.toNat % 4 = 0) :
    step s = .next { s with inbox := rest, replies := .value (readTarget (targetAt off) s) :: s.replies } := by
  have ha : admitted off 4 = true := (admitted_iff off 4).2 ⟨rfl, aligned⟩
  rw [step_cons s _ rest hi, handle, busRead_idle (s := { s with inbox := rest }) ha hb]
  rfl

/-- Settles O9: the word read is the one at the row of R61 that holds the offset. -/
theorem idleReadReturnsRegister : Obligations.IdleReadReturnsRegister := by
  intro s off rest hi hb aligned
  have byteToNat (b : Byte) : (b.zeroExtend 32).toNat = b.toNat := BitVec.toNat_setWidth_of_le (by decide)
  refine ⟨readTarget (targetAt off) s, ?_, ?_, ?_, ?_, ?_, fun k hk => ?_, fun k hk => ?_, ?_, ?_, ?_, ?_, ?_, ?_, ?_,
    fun r c hrc => ?_⟩
  · exact step_read_idle hi hb aligned
  · rintro rfl; rfl
  · rintro rfl; rfl
  · rintro rfl; rfl
  · rintro (rfl | rfl) <;> rfl
  · rw [targetAt_st_word hk]; exact packColumn_eq s.st k
  · rw [targetAt_key_word hk]; exact packColumn_eq s.key k
  · rintro rfl; exact byteToNat s.gfa
  · rintro rfl; exact byteToNat s.gfb
  · rintro rfl; exact byteToNat s.gfp
  · rintro rfl; rfl
  · rintro rfl; rfl
  · rintro rfl; rfl
  · rintro rfl; rfl
  · rw [targetAt_rk_word hrc]; exact packColumn_eq s.rk[r] c

/-! ## A step that takes an admitted write -/

/-- Settles O13, from the branch of `busWrite` for `BUSY`=1. -/
theorem busyWriteIsDropped : Obligations.BusyWriteIsDropped := by
  intro s off v rest hi hb aligned
  have ha : admitted off 4 = true := (admitted_iff off 4).2 ⟨rfl, aligned⟩
  rw [step_cons s _ rest hi, handle, busWrite, if_pos ha, if_pos hb]
  rfl

/-- While `BUSY`=0 an admitted write returns `Ok` and acts by the row of R61 that holds its offset (R67). -/
theorem step_write_idle {s : State} {off : Offset} {v : Word} {rest : List Event}
    (hi : s.inbox = .write off 4 v :: rest) (hb : s.status.busy = false) (aligned : off.toNat % 4 = 0) :
    step s = idleWrite (targetAt off) v { s with inbox := rest, replies := .ok :: s.replies } := by
  have ha : admitted off 4 = true := (admitted_iff off 4).2 ⟨rfl, aligned⟩
  rw [step_cons s _ rest hi, handle, busWrite, if_pos ha, if_neg (by simp [hb])]
  rfl

/-- An admitted write while `BUSY`=0 to anything but `CMD` is a write of the register there (R67). -/
theorem step_write_register {s : State} {off : Offset} {v : Word} {rest : List Event} {a : Target}
    (hi : s.inbox = .write off 4 v :: rest) (hb : s.status.busy = false) (aligned : off.toNat % 4 = 0)
    (target : targetAt off = a) (notCmd : a ≠ .cmd) :
    step s = .next (writeTarget a v { s with inbox := rest, replies := .ok :: s.replies }) := by
  rw [step_write_idle hi hb aligned, target, idleWrite, if_neg notCmd]

/-- Settles O14: the write goes to the row of R61 that holds the offset. -/
theorem idleWriteByTarget : Obligations.IdleWriteByTarget := by
  intro s s₀ off v rest hi hb aligned hs₀
  subst hs₀
  have register {a : Target} := step_write_register (a := a) hi hb aligned
  refine ⟨?_, ?_, ?_, fun k hk => ?_, fun k hk => ?_, ?_, ?_, ?_, ?_, ?_⟩
  · rintro rfl; exact step_write_idle hi hb aligned
  · rintro rfl; exact register (a := .status) rfl nofun
  · rintro (rfl | rfl | rfl | rfl | rfl | h)
    · exact register (a := .ecmd) rfl nofun
    · exact register (a := .reserved) rfl nofun
    · exact register (a := .gfp) rfl nofun
    · exact register (a := .reserved) rfl nofun
    · exact register (a := .mpr) rfl nofun
    · exact register (targetAt_eq_rk_columnOf h) nofun
  · exact ⟨_, register (targetAt_st_word hk) nofun, getElem_setColumn_same s.st k v,
      getElem_setColumn_other s.st k v⟩
  · exact ⟨_, register (targetAt_key_word hk) nofun, getElem_setColumn_same s.key k v,
      getElem_setColumn_other s.key k v⟩
  · rintro rfl; exact register (a := .gfa) rfl nofun
  · rintro rfl; exact register (a := .gfb) rfl nofun
  · rintro rfl; exact register (a := .mpb) rfl nofun
  · rintro rfl; exact register (a := .mpe) rfl nofun
  · rintro rfl; exact register (a := .mpm) rfl nofun

/-! ## Writes to `STATUS` (R70) -/

/-- The flags after a write of `v`: each of bits 1, 3 and 4 decides its own flags, and the others stay. -/
theorem writeOneToClear_eq (v : Word) (f : Status) :
    writeOneToClear v f =
      { busy := f.busy
        done := if v.getLsbD 1 then false else f.done
        keyValid := f.keyValid
        errf := if v.getLsbD 3 then false else f.errf
        ovr := if v.getLsbD 4 then false else f.ovr
        ecode := if v.getLsbD 3 then 0 else f.ecode } := by
  have clear (bit flag : Bool) : (flag && !bit) = if bit then false else flag := by cases bit <;> simp
  simp only [writeOneToClear, clear]

/-- Settles O15, from the flags after a write to `STATUS`. -/
theorem statusWriteClearsChosenFlags : Obligations.StatusWriteClearsChosenFlags := by
  intro s v rest hi hb
  rw [step_write_register hi hb rfl (a := .status) rfl nofun, writeTarget, writeStatus, writeOneToClear_eq, hb]

/-! ## Writes to `KEY`, and `KEYVALID` (R69) -/

/-- The words of `RK` read as the round keys alone (R64). -/
theorem readTarget_rk_eq {s t : State} (h : t.rk = s.rk) (r : Fin 11) (c : Fin 4) :
    readTarget (.rk r c) t = readTarget (.rk r c) s := by
  simp only [readTarget, h]

/-- No register write sets `KEYVALID` (R34). -/
theorem writeTarget_keyValid_eq_false (a : Target) (v : Word) {s : State} (h : s.status.keyValid = false) :
    (writeTarget a v s).status.keyValid = false := by
  cases a with
  | key k => rfl
  | _ => exact h

/-- `KEYVALID`=0 lasts over every step but the completion of KEYEXP (R34, R69). -/
theorem step_keyValid_eq_false {s t : State} (h : step s = .next t) (hk : s.status.keyValid = false)
    (other : ¬ (s.status.busy = true ∧ nextEvent s = .complete ∧ decode s.ifc = .ok .keyexp)) :
    t.status.keyValid = false := by
  cases step_kind s t h with
  | quiet _ _ _ _ _ result => simpa [result] using hk
  | dropped _ _ _ _ _ result => simpa [result] using hk
  | started _ _ _ _ _ _ _ result => simpa [result] using hk
  | raised _ _ _ _ _ _ result => simpa [result] using hk
  | written off v _ _ _ _ result => rw [result]; exact writeTarget_keyValid_eq_false _ v hk
  | completed i event busy decoded result =>
    have notKeyexp : i ≠ .keyexp := by rintro rfl; exact other ⟨busy, event, decoded⟩
    simpa [result, commandEffect_keyValid i _ notKeyexp] using hk
  | reset _ result => simp [result, State.reset]

/-- While `KEYVALID`=0 the commands that use `RK` fail their check (R97). -/
theorem preconditionFailure_noKey {i : Instr} {s : State} (hk : s.status.keyValid = false)
    (hi : i = .encrypt ∨ ∃ r, i = .addroundkey r) : preconditionFailure i s = some .noKey := by
  rcases hi with rfl | ⟨r, rfl⟩ <;> simp [preconditionFailure, hk]

/-- Settles O16, from the write of a word of `KEY`, `step_keyValid_eq_false` and the failed check. -/
theorem keyWriteInvalidatesRoundKeys : Obligations.KeyWriteInvalidatesRoundKeys := by
  refine ⟨fun s off v rest hi hb aligned hl hu => ?_, fun s t h hold hnew => ?_, fun s i hk hb he hi => ?_⟩
  · exact ⟨_, step_write_register hi hb aligned (targetAt_eq_key_columnOf hl hu) nofun, rfl, writeTarget_rk _ v _,
      readTarget_rk_eq (writeTarget_rk _ v _)⟩
  · by_contra other
    simp [step_keyValid_eq_false h hold other] at hnew
  · have wellFormed : i.wellFormed = true := by
      rcases hi with rfl | ⟨r, rfl, hr⟩
      · rfl
      · simpa [Instr.wellFormed] using hr
    have usesKeys : i = .encrypt ∨ ∃ r, i = .addroundkey r := hi.imp_right fun ⟨r, e, _⟩ => ⟨r, e⟩
    rw [exec_idle i s wellFormed hb, preconditionFailure_noKey hk usesKeys, issue_raise _ _ _ he]
    rfl

end Sys2Proof.Machine
end

section
/-! PROOFS. The family of 30_encoding.md: the fields of a word and the decoder (R91, R94), the 20 legal words (R93), what
an illegal word does (R95), and the issue rule (R97). -/

namespace Sys2Proof.Machine

/-! ## The fields of a word and the decoder (R91, R94) -/

/-- A bit above the two fields of a word whose `ZERO` field is 0 is 0 (R91). -/
theorem getElem_eq_false_of_zeroField {w : Word} (hz : zeroField w = 0) {j : Nat} (hl : 12 ≤ j) (hu : j < 32) :
    w[j] = false := by
  have field : j - 12 < 20 := by omega
  have bit : (zeroField w)[j - 12] = false := by simp [hz]
  simpa [zeroField, hl, hu] using bit

/-- A word whose `ZERO` field is 0 is made of its two other fields (R91). -/
theorem commandWord_fields {w : Word} (hz : zeroField w = 0) : commandWord (rkselField w) (opcodeField w) = w := by
  ext j hj
  obtain opc | ⟨hl, hu⟩ | zero : j < 8 ∨ (8 ≤ j ∧ j < 12) ∨ 12 ≤ j := by omega
  · simp [commandWord, opcodeField, opc, hj]
  · have sel : j - 8 < 4 := by omega
    simp [commandWord, rkselField, sel, hl, Nat.not_lt.2 hl, hj]
  · have noOpc : (opcodeField w).getLsbD j = false := BitVec.getLsbD_of_ge _ _ (by omega)
    have noSel : (rkselField w).getLsbD (j - 8) = false := BitVec.getLsbD_of_ge _ _ (by omega)
    simp [commandWord, noOpc, noSel, getElem_eq_false_of_zeroField hz zero hj]

/-- A format-N command's word holds its opcode and nothing else (R93). -/
theorem encode_of_formatNCommand {opc : Byte} {i : Instr} (h : formatNCommand opc = .ok i) :
    encode i = commandWord 0 opc := by
  unfold formatNCommand at h
  repeat' split at h
  all_goals cases h
  all_goals subst opc; rfl

/-- Where the decoder finds a command: in the fields of ADDROUNDKEY, or in the opcode of a format-N word (R94). -/
theorem decode_ok_cases {w : Word} {i : Instr} (h : decode w = .ok i) :
    zeroField w = 0 ∧
      ((opcodeField w = 0x04 ∧ i = .addroundkey (rkselField w)) ∨
       (rkselField w = 0 ∧ formatNCommand (opcodeField w) = .ok i)) := by
  unfold decode at h
  split at h
  next => cases h
  next hz =>
    refine ⟨not_not.1 hz, ?_⟩
    split at h
    next opc =>
      split at h
      next => cases h; exact .inl ⟨opc, rfl⟩
      next => cases h
    next =>
      split at h
      next => cases h
      next sel => exact .inr ⟨not_not.1 sel, h⟩

/-- Decoding loses no bit: a word that decodes is the one its command encodes to (R91, R94). -/
theorem encode_of_decode {w : Word} {i : Instr} (h : decode w = .ok i) : encode i = w := by
  obtain ⟨hz, ⟨opc, rfl⟩ | ⟨sel, hf⟩⟩ := decode_ok_cases h
  · calc encode (.addroundkey (rkselField w)) = commandWord (rkselField w) (opcodeField w) := by rw [opc]; rfl
      _ = w := commandWord_fields hz
  · calc encode i = commandWord (rkselField w) (opcodeField w) := by rw [sel, encode_of_formatNCommand hf]
      _ = w := commandWord_fields hz

/-! ## The legal words (R93) -/

/-- The word of every well-formed command stands in the table, beside its command. -/
theorem encode_mem_legalWords {i : Instr} (hw : i.wellFormed = true) : (encode i, i) ∈ legalWords := by
  cases i with
  | addroundkey r => revert r; decide
  | _ => decide

/-- Every row of the table decodes as it says. -/
theorem decode_of_mem_legalWords : ∀ row ∈ legalWords, decode row.1 = .ok row.2 := by decide

/-- Settles O2: a word that decodes is its command's encoding, and the table holds the encodings. -/
theorem legalWordsAreTheTwenty : Obligations.LegalWordsAreTheTwenty := by
  intro w i
  refine ⟨fun h => ?_, decode_of_mem_legalWords (w, i)⟩
  have row := encode_mem_legalWords (wellFormed_of_decode w i h)
  rwa [encode_of_decode h] at row

/-! ## The issue rule (R97) -/

/-- Settles O19, branch by branch: a dropped write while `BUSY`=1, else what a write to `CMD` can do. -/
theorem issueFollowsTheRule : Obligations.IssueFollowsTheRule := by
  intro s s₀ w rest hi hs₀
  cases hb : s.status.busy with
  | true => rw [if_pos rfl, hs₀]; exact busyWriteIsDropped s 0x00 w rest hi hb rfl
  | false =>
    have taken : s₀ = reply .ok (takeEvent s) := by simp [hs₀, reply, takeEvent, hi]
    have issued : step s = commandWrite w s₀ := by rw [step_write_idle hi hb rfl, hs₀]; rfl
    rw [if_neg Bool.false_ne_true, issued, taken]
    rcases commandWrite_cases w (reply .ok (takeEvent s)) hb with
      ⟨(errf : s.status.errf = true), e⟩ | ⟨i, (errf : s.status.errf = false), decoded, e⟩ |
      ⟨_, (errf : s.status.errf = false), decoded, e⟩
    · rw [e, if_pos errf]
    · rw [e, if_neg (ne_true_of_eq_false errf), encode_of_decode decoded, preconditionFailure_reply,
        preconditionFailure_takeEvent]
      simp only [decoded]
      cases preconditionFailure i s with
      | none => exact congrArg _ (issue_start w (reply .ok (takeEvent s)) errf)
      | some code => exact congrArg _ (issue_raise w code (reply .ok (takeEvent s)) errf)
    · rw [e, if_neg (ne_true_of_eq_false errf)]
      simp only [decoded]
      exact congrArg _ (issue_raise w .illegal (reply .ok (takeEvent s)) errf)

/-! ## Illegal words (R95) -/

/-- The kinds of illegal word, as R95 lists them. -/
def IllegalFields (w : Word) : Prop :=
  zeroField w ≠ 0 ∨
  (opcodeField w = 0x04 ∧ 11 ≤ (rkselField w).toNat) ∨
  (opcodeField w ≠ 0x04 ∧ rkselField w ≠ 0) ∨
  opcodeField w ∉ ([0x00, 0x01, 0x02, 0x03, 0x04, 0x05, 0x06, 0x10, 0x20, 0x21] : List Byte)

/-- No row of the table of R93 is of one of the kinds of R95. -/
theorem not_illegalFields_of_mem_legalWords : ∀ row ∈ legalWords, ¬ IllegalFields row.1 := by
  simp only [IllegalFields]; decide

/-- The decoder rejects every word of one of the kinds of R95. -/
theorem decode_error_of_illegalFields {w : Word} (h : IllegalFields w) : ∃ e, decode w = .error e := by
  cases hd : decode w with
  | error e => exact ⟨e, rfl⟩
  | ok i => exact absurd h (not_illegalFields_of_mem_legalWords (w, i) ((legalWordsAreTheTwenty w i).1 hd))

/-- Settles O4: the decoder rejects the word, and the issue rule says what follows. -/
theorem illegalWordRaisesError : Obligations.IllegalWordRaisesError := by
  intro s v rest hi hb he kinds
  obtain ⟨_, hd⟩ := decode_error_of_illegalFields kinds
  simp [issueFollowsTheRule s _ v rest hi rfl, hb, he, hd]

end Sys2Proof.Machine
end

section
/-! PROOFS. The family of 40_gf256.md: the passes of the multiplier's loop that change nothing (R121), and the command
GFMUL (R123). -/

namespace Sys2Proof.Machine

/-! ## The loop of the multiplier (R121) -/

@[simp] theorem xtime_zero : xtime 0#8 = 0#8 := rfl

/-- Once no bit of `b` is left, the product stays (R121). -/
@[simp] theorem gfmulLoop_right_zero (k : Nat) (a p : Byte) : gfmulLoop k a 0#8 p = p := by
  induction k generalizing a with
  | zero => rfl
  | succ k ih => exact ih (xtime a)

/-- Multiples of 0 add nothing to the product (R121). -/
@[simp] theorem gfmulLoop_left_zero (k : Nat) (b p : Byte) : gfmulLoop k 0#8 b p = p := by
  induction k generalizing b with
  | zero => rfl
  | succ k ih => simp [gfmulLoop, ih]

@[simp] theorem gfmul_zero (a : Byte) : gfmul a 0#8 = 0#8 := gfmulLoop_right_zero 8 a 0#8

@[simp] theorem zero_gfmul (a : Byte) : gfmul 0#8 a = 0#8 := gfmulLoop_left_zero 8 a 0#8

/-- The first pass adds `a`; the seven others have no bit of `b` left. -/
@[simp] theorem gfmul_one (a : Byte) : gfmul a 1#8 = a :=
  calc gfmul a 1#8 = gfmulLoop 7 (xtime a) 0#8 (0#8 ^^^ a) := rfl
    _ = a := by rw [gfmulLoop_right_zero, BitVec.zero_xor]

/-! ## The command GFMUL (R123) -/

/-- Settles O40: the decoder on the two words, the shared issue and completion, and the corner cases of the loop. -/
theorem gfmulStoresTheProduct : Obligations.GfmulStoresTheProduct := by
  refine ⟨by decide, by decide, fun s busy errf => ?_, fun s busy => exec_busy .gfmul s rfl busy,
    fun a => ⟨gfmul_zero a, zero_gfmul a, gfmul_one a⟩, by decide⟩
  calc exec .gfmul s = .next (issue (encode .gfmul) none s) := exec_idle .gfmul s rfl busy
    _ = .next (startCommand (encode .gfmul) s) := by rw [issue_start _ _ errf]
    _ = _ := rfl

end Sys2Proof.Machine
end

section
/-! PROOFS. The family of 41_aes_transforms.md: the S-box against its formula (R130), and the completions of the four
transforms (R131 to R138). -/

namespace Sys2Proof.Machine

/-! ## The S-box (R130) -/

/-- The formula of R130, applied to a byte `b`: `b`, its rotations by 1 to 4, and the constant. -/
def sboxAffine (b : Byte) : Byte :=
  b ^^^ b.rotateLeft 1 ^^^ b.rotateLeft 2 ^^^ b.rotateLeft 3 ^^^ b.rotateLeft 4 ^^^ 0x63

/-- The formula of R130 undone. -/
def sboxAffineInverse (y : Byte) : Byte :=
  y.rotateLeft 1 ^^^ y.rotateLeft 3 ^^^ y.rotateLeft 6 ^^^ 0x05

theorem sboxAffine_sboxAffineInverse : ∀ y : Byte, sboxAffine (sboxAffineInverse y) = y := by decide +kernel

/-- The byte `inv(x)` of R130, read back from the table: what the formula takes to the entry of `x`. -/
def sboxPreimage (x : Byte) : Byte := sboxAffineInverse (sbox x)

theorem sboxPreimage_zero : sboxPreimage 0 = 0 := by decide +kernel

theorem gfmulDef_sboxPreimage : ∀ x : Byte, x ≠ 0 → gfmulDef x (sboxPreimage x) = 1 := by decide +kernel

/-- The inverse of the inverse is the byte itself. -/
theorem sboxPreimage_involutive : Function.Involutive sboxPreimage :=
  have twice : ∀ x : Byte, sboxPreimage (sboxPreimage x) = x := by decide +kernel
  twice

/-- Two bytes with the same entry have the same inverse, so they are equal: no search through the table. -/
theorem sbox_injective : Function.Injective sbox :=
  Function.Injective.of_comp (f := sboxAffineInverse) sboxPreimage_involutive.injective

/-- Settles O30: the inverse is read back from the table, and the formula takes it to the entry. -/
theorem sboxFollowsItsFormula : Obligations.SboxFollowsItsFormula := by
  refine ⟨fun x => ⟨sboxPreimage x, ?_, gfmulDef_sboxPreimage x, ?_⟩, fun _ _ same => sbox_injective same,
    by decide +kernel⟩
  · rintro rfl
    exact sboxPreimage_zero
  · exact (sboxAffine_sboxAffineInverse (sbox x)).symm

/-! ## The completion of a command that writes `ST` alone (R132, R134, R137, R139) -/

theorem exec_busy_of_st {i : Instr} {s : State} {A : Block} (hw : i.wellFormed = true) (busy : s.status.busy = true)
    (effect : commandEffect i s = { s with st := A }) :
    exec i s = .next { s with st := A, status := { s.status with busy := false, done := true } } := by
  rw [exec_busy i s hw busy, effect]
  rfl

/-- The effect of ADDROUNDKEY with an index in range (R139). -/
theorem commandEffect_addroundkey {r : BitVec 4} (s : State) (h : r.toNat < 11) :
    commandEffect (.addroundkey r) s = { s with st := addRoundKey s.st s.rk[r.toNat] } :=
  dif_pos h

/-! ## MIXCOLUMNS (R135, R136) -/

/-- The entries of the mix matrix by R135's rule. -/
theorem mixMatrix_entry : ∀ r k : Fin 4,
    mixMatrix[r][k] = if k = r then 0x02 else if k.val = (r.val + 1) % 4 then 0x03 else 0x01 := by
  decide

/-- The product of the mix matrix and the state, cell by cell: row `r` of the one with column `c` of the other. -/
theorem cell_mixColumns (S : Block) (r c : Fin 4) :
    cell (mixColumns S) r c =
      (List.ofFn fun k : Fin 4 => gfmul mixMatrix[r][k] (cell S k c)).foldl (· ^^^ ·) 0 := by
  simp [mixColumns, List.ofFn_succ]

/-- 1 is neutral on the left of the datapath's product too (`gfmul_one` is the right). -/
@[simp] theorem one_gfmul : ∀ b : Byte, gfmul 1#8 b = b := by decide +kernel

/-- Settles O32: the dot product is `cell_mixColumns` with the entries by R135's rule; in the four sums the products by 1
are the bytes themselves. -/
theorem mixcolumnsMultipliesColumns : Obligations.MixcolumnsMultipliesColumns := by
  intro s busy
  have dot (r c : Fin 4) := cell_mixColumns s.st r c
  simp only [mixMatrix_entry] at dot
  refine ⟨mixColumns s.st, exec_busy_of_st rfl busy rfl, dot, fun c => ?_⟩
  simpa [Fin.forall_fin_succ, cell, List.ofFn_succ, Nat.add_comm] using fun r => dot r c

/-! ## SUBBYTES, SHIFTROWS and ADDROUNDKEY (R131, R133, R138) -/

/-- Settles O29: the shared completion, and the substitution byte by byte. -/
theorem subbytesSubstitutesEachByte : Obligations.SubbytesSubstitutesEachByte := fun s busy =>
  ⟨subBytes s.st, exec_busy_of_st rfl busy rfl, fun i => by simp [subBytes]⟩

/-- Settles O31: the cells of the rotated matrix are R133's formula; the table names the same byte for each cell. -/
theorem shiftrowsRotatesRowsLeft : Obligations.ShiftrowsRotatesRowsLeft := by
  refine fun s busy => ⟨shiftRows s.st, exec_busy_of_st rfl busy rfl, fun r c => cell_shiftRows s.st r c,
    block_ext _ _ fun r c => ?_⟩
  rw [cell_shiftRows]
  fin_cases r <;> fin_cases c <;> rfl

/-- Settles O33: an index up to 10 is well-formed, so the command completes, and the XOR is byte by byte. -/
theorem addroundkeyXorsRoundKey : Obligations.AddroundkeyXorsRoundKey := fun s _ h busy =>
  ⟨_, exec_busy_of_st (decide_eq_true h) busy (commandEffect_addroundkey s (Nat.lt_succ_of_le h)),
    fun i => by simp [addRoundKey]⟩

end Sys2Proof.Machine
end

section
/-! PROOFS. The family of 42_aes_keyexp_cipher.md: the words of the key schedule (R152), the cipher that ENCRYPT applies
(R155), and the round constants (R150). -/

namespace Sys2Proof.Machine

/-! ## The words of the key schedule (R152) -/

/-- A window of the schedule holds four consecutive words of it. -/
theorem getElem_keyWindow (K : Block) (n c : Nat) (h : c < 4) : (keyWindow K n)[c] = keyWord K (n + c) := by
  induction c generalizing n with
  | zero => rfl
  | succ c ih =>
    have shift : (keyWindow K n)[c + 1] = (keyWindow K (n + 1))[c] := by
      obtain rfl | rfl | rfl : c = 0 ∨ c = 1 ∨ c = 2 := by omega
      all_goals rfl
    rw [shift, ih, Nat.succ_add_eq_add_succ]

/-- Words 0 to 3 are the columns of the key. -/
theorem keyWord_column (K : Block) (c : Fin 4) : keyWord K c.val = Vector.ofFn fun j : Fin 4 => cell K j c := by
  calc keyWord K c.val = (keyWindow K 0)[c.val] := by rw [getElem_keyWindow, Nat.zero_add]
    _ = _ := by simp [keyWindow]

/-- Word `i` from words `i - 4` and `i - 1`. -/
theorem keyWord_eq_nextKeyWord (K : Block) {i : Nat} (h : 4 ≤ i) :
    keyWord K i = nextKeyWord i (keyWord K (i - 4)) (keyWord K (i - 1)) := by
  obtain ⟨n, rfl⟩ := Nat.exists_eq_add_of_le' h
  calc keyWord K (n + 4) = (keyWindow K (n + 1))[3] := by rw [getElem_keyWindow]
    _ = nextKeyWord (n + 4) (keyWindow K n)[0] (keyWindow K n)[3] := rfl
    _ = _ := by simp only [getElem_keyWindow]; rfl

@[simp] theorem getElem_xorWord (v w : KeyWord) (j : Nat) (h : j < 4) : (xorWord v w)[j] = v[j] ^^^ w[j] := by
  simp [xorWord]

/-- Settles O36: the first words are columns of the key, and the recurrence is read off byte by byte. -/
theorem keyScheduleRecurrence : Obligations.KeyScheduleRecurrence := by
  refine fun K => ⟨fun i j => ?_, fun i hl _ p hp => ⟨fun other j => ?_, fun multiple => ?_⟩⟩
  · simp [keyWord_column, cell, Nat.add_comm]
  · simp [keyWord_eq_nextKeyWord K hl, ← hp, nextKeyWord, other]
  · simp [keyWord_eq_nextKeyWord K hl, ← hp, nextKeyWord, multiple, transformWord, subWord, rotWord]

/-! ## The cipher (R155) -/

/-- The full round after the first `r` is round `r + 1`. -/
theorem take_succ_fullRounds :
    ∀ r : Fin 9, fullRounds.take (r.val + 1) = fullRounds.take r.val ++ [⟨r.val + 1, by omega⟩] := by decide

/-- Along a sequence that applies one full round at a time, the first `n` full rounds lead from `S 0` to `S n`. -/
theorem foldl_take_fullRounds {S : Nat → Block} {R : RoundKeys}
    (round : ∀ r : Fin 9, S (r.val + 1) = cipherRound (S r.val) R[r.val + 1]) :
    ∀ n ≤ 9, (fullRounds.take n).foldl (fun A r => cipherRound A R[r]) (S 0) = S n := by
  intro n hn
  induction n with
  | zero => rfl
  | succ n ih =>
    rw [take_succ_fullRounds ⟨n, hn⟩, List.foldl_append, ih (by omega)]
    exact (round ⟨n, hn⟩).symm

/-- Settles O38: the shared completion, and the nine full rounds along the sequence. -/
theorem encryptAppliesTheCipher : Obligations.EncryptAppliesTheCipher := by
  intro s busy S start round
  have rounds : fullRounds.foldl (fun A r => cipherRound A s.rk[r]) (S 0) = S 9 :=
    foldl_take_fullRounds round 9 le_rfl
  rw [exec_busy_of_st rfl busy rfl, cipher, ← start, rounds]

/-! ## The round constants (R150) -/

/-- Settles O35: the ten constants and their nine doublings. -/
theorem roundConstantsDouble : Obligations.RoundConstantsDouble := by
  refine ⟨rfl, fun j hl hu => ?_⟩
  interval_cases j <;> rfl

end Sys2Proof.Machine
end

section
/-! PROOFS. The family of 43_modexp.md: the binary method computes the natural-number power (R170, R171), and the two
commands complete with it (R174, R175). -/

namespace Sys2Proof.Machine

/-! ## The engine's modular product (R172) -/

/-- No product is truncated: 64 bits hold it, and the remainder fits the word again. -/
theorem toNat_mulMod (x y : Word) {m : Word} (hm : 0 < m.toNat) :
    (mulMod x y m).toNat = x.toNat * y.toNat % m.toNat := by
  have widen (v : Word) : (v.zeroExtend 64).toNat = v.toNat := BitVec.toNat_setWidth_of_le (by decide)
  have product : x.toNat * y.toNat < 2 ^ 64 := Nat.mul_lt_mul'' (c := 2 ^ 32) (d := 2 ^ 32) x.isLt y.isLt
  have remainder : x.toNat * y.toNat % m.toNat < 2 ^ 32 := (Nat.mod_lt _ hm).trans m.isLt
  rw [mulMod, BitVec.toNat_setWidth, BitVec.toNat_umod, BitVec.toNat_mul, widen, widen, widen,
    Nat.mod_eq_of_lt product, Nat.mod_eq_of_lt remainder]

/-! ## The binary method (R171) -/

/-- One pass multiplies the running result by `x` to the lowest bit of the exponent. -/
theorem toNat_pass_result {r m : Word} (x e : Word) (hr : r.toNat < m.toNat) :
    (if e.getLsbD 0 then mulMod r x m else r).toNat = r.toNat * x.toNat ^ (e.toNat % 2) % m.toNat := by
  have bit : e[0] = decide (e.toNat % 2 = 1) := Nat.testBit_zero _
  rcases Nat.mod_two_eq_zero_or_one e.toNat with even | odd
  · simp [bit, even, Nat.mod_eq_of_lt hr]
  · simp [bit, odd, toNat_mulMod r x (Nat.zero_lt_of_lt hr)]

/-- The arithmetic of one pass: a power is the base to the exponent's lowest bit times the square to the rest. -/
theorem pass_preserves_power (r x e m : Nat) :
    r * x ^ (e % 2) % m * (x * x % m) ^ (e / 2) % m = r * x ^ e % m := by
  calc r * x ^ (e % 2) % m * (x * x % m) ^ (e / 2) % m
      = r * x ^ (e % 2) * (x * x) ^ (e / 2) % m := ((Nat.mod_modEq _ m).mul ((Nat.mod_modEq _ m).pow _))
    _ = r * x ^ e % m := by rw [mul_assoc, ← pow_two, ← pow_mul, ← pow_add, Nat.mod_add_div]

/-- The loop's invariant: from a reduced `r`, enough passes for the bits of `e` give `r * x ^ e` reduced. -/
theorem toNat_modpowLoop {m : Word} (k : Nat) (r x e : Word) (hr : r.toNat < m.toNat) (he : e.toNat < 2 ^ k) :
    (modpowLoop m k r x e).toNat = r.toNat * x.toNat ^ e.toNat % m.toNat := by
  have hm : 0 < m.toNat := Nat.zero_lt_of_lt hr
  induction k generalizing r x e with
  | zero =>
    have exhausted : e.toNat = 0 := by omega
    simp [modpowLoop, exhausted, Nat.mod_eq_of_lt hr]
  | succ k ih =>
    by_cases exhausted : e = 0
    · simp [modpowLoop, exhausted, Nat.mod_eq_of_lt hr]
    · have shifted : (e >>> 1).toNat = e.toNat / 2 := by simp [Nat.shiftRight_one]
      have result := toNat_pass_result x e hr
      rw [modpowLoop, if_neg exhausted, ih _ _ _ (result ▸ Nat.mod_lt _ hm) (by omega), result, shifted,
        toNat_mulMod x x hm, pass_preserves_power]

/-- The binary method computes the modular power of R170. -/
theorem toNat_modpow (b e : Word) {m : Word} (hm : m ≠ 0) :
    (modpow b e m).toNat = modPowSpec b.toNat e.toNat m.toNat := by
  have positive : 0 < m.toNat := by bv_omega
  have start : (1 % m).toNat = 1 % m.toNat := BitVec.toNat_umod
  calc (modpow b e m).toNat
      = 1 % m.toNat * (b.toNat % m.toNat) ^ e.toNat % m.toNat := by
        rw [modpow, toNat_modpowLoop 32 _ _ _ (start ▸ Nat.mod_lt _ positive) e.isLt, start, BitVec.toNat_umod]
    _ = 1 * b.toNat ^ e.toNat % m.toNat := (Nat.mod_modEq _ _).mul ((Nat.mod_modEq _ _).pow _)
    _ = modPowSpec b.toNat e.toNat m.toNat := by rw [one_mul, modPowSpec]

/-! ## The commands MODPOW and RSAENC (R174, R175) -/

/-- The stored value is the engine's power: only the modulus 0 is left open (R170). -/
theorem modpowResult_eq_modpow {s : State} (hm : s.mpm ≠ 0) : modpowResult s = modpow s.mpb s.mpe s.mpm :=
  if_neg hm

/-- Settles O43: the shared completion with the stored value, which is the modular power. -/
theorem modularCommandsStoreThePower : Obligations.ModularCommandsStoreThePower := by
  intro s busy hm
  have power : (modpowResult s).toNat = s.mpb.toNat ^ s.mpe.toNat % s.mpm.toNat := by
    rw [modpowResult_eq_modpow hm, toNat_modpow _ _ hm, modPowSpec]
  have range : (modpowResult s).toNat < s.mpm.toNat := power ▸ Nat.mod_lt _ (by bv_omega)
  exact ⟨modpowResult s, power, range, exec_busy .modpow s rfl busy, exec_busy .rsaenc s rfl busy⟩

end Sys2Proof.Machine
end

section
/-! PROOFS. The family of 44_control.md: a command whose completion follows its issue at once (R96), and NOP (R190). -/

namespace Sys2Proof.Machine

/-! ## Issue, and completion at once (R96) -/

/-- The issue of a well-formed command whose preconditions hold starts it (R97). -/
theorem exec_start {i : Instr} {s : State} (hw : i.wellFormed = true) (busy : s.status.busy = false)
    (errf : s.status.errf = false) (checked : preconditionFailure i s = none) :
    exec i s = .next (startCommand (encode i) s) := by
  rw [exec_idle i s hw busy, checked, issue_start _ _ errf]

/-- Once issued, a command that completes at once does so on the state its issue leaves (R96). -/
theorem runAtOnce_of_exec {i : Instr} {s t : State} (issued : exec i s = .next t) : runAtOnce i s = exec i t := by
  simp only [runAtOnce, issued]

/-- A well-formed command whose preconditions hold is started, then takes its effect (R96 to R98). -/
theorem runAtOnce_start {i : Instr} {s : State} (hw : i.wellFormed = true) (busy : s.status.busy = false)
    (errf : s.status.errf = false) (checked : preconditionFailure i s = none) :
    runAtOnce i s = .next (finishCommand (commandEffect i (startCommand (encode i) s))) := by
  rw [runAtOnce_of_exec (exec_start hw busy errf checked), exec_busy i _ hw rfl]

/-! ## The command NOP (R190) -/

/-- After a completion with `OVR`, `ERRF` and `ECODE` 0, `STATUS` shows `DONE`, and `KEYVALID` as it is (R31, R98). -/
theorem statusWord_finishFlags {f : Status} (errf : f.errf = false) (ovr : f.ovr = false) (ecode : f.ecode = 0) :
    statusWord (finishFlags f) = if f.keyValid = true then 0x00000006 else 0x00000002 := by
  cases h : f.keyValid <;> simp [statusWord, finishFlags, h, errf, ovr, ecode]

/-- Settles O28: the decoder on the word, the shared issue and completion with no check and no effect, the shared
refusals, and the two steps in a row. -/
theorem nopGoesThroughIssueAndCompletion : Obligations.NopGoesThroughIssueAndCompletion := by
  refine ⟨by decide, fun s => ⟨fun busy errf => exec_start rfl busy errf rfl, exec_busy .nop s rfl,
    fun busy errf => ?ignored, fun rest busy hi => busyWriteIsDropped s 0x00 0 rest hi busy rfl,
    fun busy errf ovr ecode => ⟨_, runAtOnce_start rfl busy errf rfl, rfl, ?word⟩⟩⟩
  case ignored => rw [exec_idle .nop s rfl busy, issue_errf _ _ _ errf]
  case word => exact statusWord_finishFlags (f := startFlags s.status) errf ovr ecode

end Sys2Proof.Machine
end

section
/-! PROOFS. The family of 60_exceptions.md: the error state (R205) and the error return (R206). -/

namespace Sys2Proof.Machine

/-! ## The error state (R205) -/

/-- While an error stands, a write to `CMD` is not decoded and changes nothing (R205). -/
theorem commandWrite_errf (w : Word) {s : State} (errf : s.status.errf = true) : commandWrite w s = .next s :=
  if_pos errf

/-- Settles O24: `ERRF` shows in the `CMD` write alone; a read and any other write are those of every idle state. -/
theorem errorStateIgnoresCommands : Obligations.ErrorStateIgnoresCommands := by
  intro s off v rest errf busy aligned
  refine ⟨fun hi => ?command, fun hi => step_read_idle hi busy aligned, fun hi other => ?register⟩
  case command => exact (step_write_idle hi busy rfl).trans (commandWrite_errf v errf)
  case register => exact step_write_register hi busy aligned rfl (mt (targetAt_eq_cmd off aligned) other)

/-! ## The error return (R206) -/

/-- The error return clears the recorded error, and nothing else: bits 1 and 4 of its value are 0 (R70, R206). -/
theorem clearErr_eq (s : State) :
    clearErr s = { s with ecmd := 0, status := { s.status with errf := false, ecode := 0 } } := by
  rw [clearErr, writeStatus, writeOneToClear_eq]
  rfl

theorem writeStatus_errf_of_bit {v : Word} (s : State) (bit : v.getLsbD 3 = true) :
    (writeStatus v s).status.errf = false := by
  rw [writeStatus_status, writeOneToClear_errf, bit, Bool.not_true, Bool.and_false]

theorem writeStatus_ecode_of_bit {v : Word} (s : State) (bit : v.getLsbD 3 = true) :
    (writeStatus v s).status.ecode = 0 := by
  rw [writeStatus_status, writeOneToClear_ecode, if_pos bit]

theorem writeStatus_ecmd_of_bit {v : Word} (s : State) (bit : v.getLsbD 3 = true) : (writeStatus v s).ecmd = 0 := by
  rw [writeStatus_ecmd, if_pos bit]

/-- An admitted write to `STATUS` while `BUSY`=0 is a write of its flags (R67, R70). -/
theorem step_write_status {s : State} {v : Word} {rest : List Event} (hi : s.inbox = .write 0x04 4 v :: rest)
    (busy : s.status.busy = false) :
    step s = .next (writeStatus v { s with inbox := rest, replies := .ok :: s.replies }) :=
  step_write_register hi busy rfl (a := .status) rfl nofun

/-- Settles O25: the value 8 is the error return, bit 3 of any value decides `ERRF`, `ECODE` and `ECMD`, and the reset
values of the three are 0. -/
theorem errorReturnClearsTheError : Obligations.ErrorReturnClearsTheError := by
  refine fun s rest => ⟨fun hi busy => ?errorReturn, fun v hi busy bit => ?anyValue, fun hi => ?reset⟩
  case errorReturn => exact (step_write_status hi busy).trans (congrArg _ (clearErr_eq _))
  case anyValue =>
    exact ⟨_, step_write_status hi busy, writeStatus_errf_of_bit _ bit, writeStatus_ecode_of_bit _ bit,
      writeStatus_ecmd_of_bit _ bit, busy, rfl, rfl, rfl⟩
  case reset => exact ⟨_, step_cons s .reset rest hi, rfl, rfl, rfl⟩

end Sys2Proof.Machine
end

section
/-! PROOFS. The family of 70_reset_and_hazards.md: a reset, in any state (R240). -/

namespace Sys2Proof.Machine

/-- A step that takes a reset resets the block, whatever its state (R240). -/
theorem step_reset {s : State} {rest : List Event} (hi : s.inbox = .reset :: rest) :
    step s = .next (resetBlock { s with inbox := rest }) :=
  step_cons s .reset rest hi

/-- Settles O26: the step answers the reset block, whose registers are those of R50's table. -/
theorem resetEventClearsEverything : Obligations.ResetEventClearsEverything := by
  intro s rest hi
  refine ⟨resetBlock { s with inbox := rest }, step_reset hi, resetBlock_inbox _, ?registers⟩
  case registers => exact resetStateIsAllZero

end Sys2Proof.Machine
end

section
/-! PROOFS. Decoding against encoding (30_encoding.md R91 to R95), and the invariants of 10_state.md R43: they hold after
reset, every step keeps them, a state that has them never stops, and a command in flight ends (70_reset_and_hazards.md
R254). -/

namespace Sys2Proof.Machine

/-! ## Decoding and encoding (R91 to R95) -/

/-- Every well-formed command comes back from its word (R93, R94). -/
theorem decode_encode {i : Instr} (hw : i.wellFormed = true) : decode (encode i) = .ok i :=
  decode_of_mem_legalWords (encode i, i) (encode_mem_legalWords hw)

/-- Settles O1: decoding loses no bit, and the table of R93 holds the word of every well-formed command. -/
theorem decodeInvertsEncode : Obligations.DecodeInvertsEncode := by
  refine fun w i => ⟨fun h => ⟨wellFormed_of_decode w i h, encode_of_decode h⟩, ?_⟩
  rintro ⟨hw, rfl⟩
  exact decode_encode hw

/-- Settles O3: ten fixed words. -/
theorem writtenWordsDecode : Obligations.WrittenWordsDecode := by
  unfold Obligations.WrittenWordsDecode; decide

/-! ## States with the same registers -/

namespace SameRegisters

variable {s t u : State}

theorem trans (h : SameRegisters s t) (k : SameRegisters t u) : SameRegisters s u where
  st := k.st.trans h.st
  key := k.key.trans h.key
  rk := k.rk.trans h.rk
  gfa := k.gfa.trans h.gfa
  gfb := k.gfb.trans h.gfb
  gfp := k.gfp.trans h.gfp
  mpb := k.mpb.trans h.mpb
  mpe := k.mpe.trans h.mpe
  mpm := k.mpm.trans h.mpm
  mpr := k.mpr.trans h.mpr
  ecmd := k.ecmd.trans h.ecmd
  busy := k.busy.trans h.busy
  done := k.done.trans h.done
  keyValid := k.keyValid.trans h.keyValid
  errf := k.errf.trans h.errf
  ecode := k.ecode.trans h.ecode

/-- The preconditions are a function of the registers (R97). -/
theorem preconditionFailure_eq (h : SameRegisters s t) (i : Instr) :
    preconditionFailure i t = preconditionFailure i s := by
  cases i <;> simp only [preconditionFailure, h.keyValid, h.mpm, h.mpb]

/-- The invariants speak of the registers and of the word in flight alone. -/
theorem consistent (h : SameRegisters s t) (ifc : t.ifc = s.ifc) (hc : Consistent s) : Consistent t where
  busyQuiet busy := by simpa only [h.done, h.errf] using hc.busyQuiet (h.busy ▸ busy)
  codeWithError := by simpa only [h.errf, h.ecode] using hc.codeWithError
  wordWithError errf := h.ecmd.trans (hc.wordWithError (h.errf ▸ errf))
  keysMatch keyValid := by simpa only [h.rk, h.key] using hc.keysMatch (h.keyValid ▸ keyValid)
  inFlight busy := by simpa only [ifc, h.preconditionFailure_eq] using hc.inFlight (h.busy ▸ busy)
  errorNotDone errf := h.done.trans (hc.errorNotDone (h.errf ▸ errf))
  codeRange := h.ecode ▸ hc.codeRange

end SameRegisters

/-! ## The invariants hold after reset, and every step keeps them (R43) -/

/-- Settles O51: no flag is set, so the invariants ask for the codes of no error alone. -/
theorem resetIsConsistent : Obligations.ResetIsConsistent where
  busyQuiet := nofun
  codeWithError := by decide
  wordWithError _ := rfl
  keysMatch := nofun
  inFlight := nofun
  errorNotDone := nofun
  codeRange := by decide

/-- A reset leaves the registers of the state after reset (R240). -/
theorem resetBlock_sameRegisters (s : State) : SameRegisters State.reset (resetBlock s) := by constructor <;> rfl

theorem resetBlock_consistent (s : State) : Consistent (resetBlock s) :=
  (resetBlock_sameRegisters s).consistent rfl resetIsConsistent

/-- Without an error standing, the issue of a legal command whose preconditions hold keeps the invariants (R97). -/
theorem startCommand_consistent {i : Instr} {s : State} (hc : Consistent s) (hw : i.wellFormed = true)
    (errf : s.status.errf = false) (checked : preconditionFailure i s = none) :
    Consistent (startCommand (encode i) s) where
  busyQuiet _ := ⟨rfl, errf⟩
  codeWithError := hc.codeWithError
  wordWithError := hc.wordWithError
  keysMatch := hc.keysMatch
  inFlight _ := ⟨i, decode_encode hw, by rw [← checked]; cases i <;> rfl⟩
  errorNotDone _ := rfl
  codeRange := hc.codeRange

/-- While `BUSY`=0, error entry after `DONE <- 0` keeps the invariants (R97, R204). -/
theorem raiseErr_consistent {s : State} (code : ErrCode) (w : Word) (hc : Consistent s)
    (busy : s.status.busy = false) (done : s.status.done = false) : Consistent (raiseErr code w s) where
  busyQuiet h := by simp [busy] at h
  codeWithError := iff_of_false nofun code.bits_ne_zero
  wordWithError := nofun
  keysMatch := hc.keysMatch
  inFlight h := by simp [busy] at h
  errorNotDone _ := done
  codeRange := code.bits_le

/-- `DONE <- 0` keeps the invariants. -/
theorem clearDone_consistent {s : State} (hc : Consistent s) :
    Consistent { s with status := clearDone s.status } where
  busyQuiet busy := ⟨rfl, (hc.busyQuiet busy).2⟩
  codeWithError := hc.codeWithError
  wordWithError := hc.wordWithError
  keysMatch := hc.keysMatch
  inFlight busy := by
    obtain ⟨i, decoded, checked⟩ := hc.inFlight busy
    exact ⟨i, decoded, by rw [← checked]; cases i <;> rfl⟩
  errorNotDone _ := rfl
  codeRange := hc.codeRange

/-- While `BUSY`=0, a write to `STATUS` clears `ERRF`, `ECODE` and `ECMD` together, or none of them (R70). -/
theorem writeStatus_consistent {s : State} (v : Word) (hc : Consistent s) (busy : s.status.busy = false) :
    Consistent (writeStatus v s) := by
  have codes : ((writeStatus v s).status.errf = false ↔ (writeStatus v s).status.ecode = 0) ∧
      ((writeStatus v s).status.errf = false → (writeStatus v s).ecmd = 0) ∧
      (writeStatus v s).status.ecode.toNat ≤ 4 := by
    cases bit : v.getLsbD 3 with
    | true =>
      rw [writeStatus_errf_of_bit s bit, writeStatus_ecode_of_bit s bit, writeStatus_ecmd_of_bit s bit]
      decide
    | false =>
      simpa only [writeStatus_status, writeStatus_ecmd, writeOneToClear_errf, writeOneToClear_ecode, bit, Bool.not_false,
        Bool.and_true, Bool.false_eq_true, if_false] using ⟨hc.codeWithError, hc.wordWithError, hc.codeRange⟩
  obtain ⟨codeWithError, wordWithError, codeRange⟩ := codes
  refine ⟨fun h => ?_, codeWithError, wordWithError, hc.keysMatch, fun h => ?_, fun h => ?_, codeRange⟩
  · simp [busy] at h
  · simp [busy] at h
  · obtain ⟨errf, -⟩ : s.status.errf = true ∧ v.getLsbD 3 = false := by simpa using h
    simp [hc.errorNotDone errf]

/-- While `BUSY`=0 the invariants speak of `STATUS`, `ECMD`, `KEY` and `RK` alone. -/
theorem consistent_of_idle {s t : State} (hc : Consistent s) (busy : s.status.busy = false)
    (status : t.status = s.status) (ecmd : t.ecmd = s.ecmd) (key : t.key = s.key) (rk : t.rk = s.rk) :
    Consistent t where
  busyQuiet h := by simp [status, busy] at h
  codeWithError := by rw [status]; exact hc.codeWithError
  wordWithError := by rw [status, ecmd]; exact hc.wordWithError
  keysMatch := by rw [status, rk, key]; exact hc.keysMatch
  inFlight h := by simp [status, busy] at h
  errorNotDone := by rw [status]; exact hc.errorNotDone
  codeRange := by rw [status]; exact hc.codeRange

/-- While `BUSY`=0, any new `KEY` keeps the invariants, `KEYVALID` being cleared with it (R69). -/
theorem writeKey_consistent {s : State} (hc : Consistent s) (busy : s.status.busy = false) (K : Block) :
    Consistent { s with key := K, status := { s.status with keyValid := false } } where
  busyQuiet h := absurd (busy.symm.trans h) nofun
  codeWithError := hc.codeWithError
  wordWithError := hc.wordWithError
  keysMatch := nofun
  inFlight h := absurd (busy.symm.trans h) nofun
  errorNotDone := hc.errorNotDone
  codeRange := hc.codeRange

/-- While `BUSY`=0, a register write keeps the invariants: it changes no flag but those of `STATUS` and `KEYVALID`,
and a write to `KEY` clears `KEYVALID` (R67, R69). -/
theorem writeTarget_consistent {s : State} (a : Target) (v : Word) (hc : Consistent s)
    (busy : s.status.busy = false) : Consistent (writeTarget a v s) := by
  cases a with
  | status => exact writeStatus_consistent v hc busy
  | key k => exact writeKey_consistent hc busy (setColumn s.key k v)
  | _ =>
    exact consistent_of_idle hc busy (writeTarget_status _ v s nofun nofun) (writeTarget_ecmd _ v s nofun)
      (writeTarget_key _ v s nofun) (writeTarget_rk _ v s)

/-- KEYEXP makes `RK` the expansion of `KEY`; every other command leaves both and `KEYVALID` (R154). -/
theorem commandEffect_keysMatch {i : Instr} {s : State}
    (h : s.status.keyValid = true → s.rk = keyExpansion s.key) :
    (commandEffect i s).status.keyValid = true → (commandEffect i s).rk = keyExpansion (commandEffect i s).key := by
  by_cases hi : i = .keyexp
  · subst hi; exact fun _ => rfl
  · rwa [commandEffect_keyValid i s hi, commandEffect_rk i s hi, commandEffect_key]

/-- The completion of a command keeps the invariants: no error stands while `BUSY`=1 (R98). -/
theorem completion_consistent {s : State} (i : Instr) (hc : Consistent s) (busy : s.status.busy = true) :
    Consistent (finishCommand (commandEffect i s)) where
  busyQuiet := nofun
  codeWithError := by simpa using hc.codeWithError
  wordWithError := by simpa using hc.wordWithError
  keysMatch := commandEffect_keysMatch hc.keysMatch
  inFlight := nofun
  errorNotDone errf := by simp [(hc.busyQuiet busy).2] at errf
  codeRange := by simpa using hc.codeRange

/-- Settles O52, by the kinds of step. -/
theorem stepKeepsConsistent : Obligations.StepKeepsConsistent := by
  intro s t hc h
  have taken : Consistent (takeEvent s) := SameRegisters.consistent (s := s) (by constructor <;> rfl) rfl hc
  have replied : Consistent (reply .ok (takeEvent s)) :=
    SameRegisters.consistent (s := takeEvent s) (by constructor <;> rfl) rfl taken
  cases step_kind s t h with
  | quiet replies draws _ _ _ result =>
    exact SameRegisters.consistent (by subst result; constructor <;> rfl) (by rw [result]) taken
  | dropped off v _ _ _ result =>
    exact SameRegisters.consistent (by subst result; constructor <;> rfl) (by rw [result]; rfl) taken
  | started v i _ _ errf decoded checked result =>
    exact result ▸ startCommand_consistent replied (wellFormed_of_decode v i decoded) errf (by simpa using checked)
  | raised v w code _ busy _ result =>
    exact result ▸ raiseErr_consistent code w (clearDone_consistent replied) busy rfl
  | written off v _ _ busy _ result => exact result ▸ writeTarget_consistent _ v replied busy
  | completed i _ busy _ result => exact result ▸ completion_consistent i taken busy
  | reset _ result => exact result ▸ resetBlock_consistent _

/-! ## A consistent state never stops, and a command in flight ends -/

/-- A `CMD` write while `BUSY`=0 is ignored or an issue: it never stops the machine (R97). -/
theorem commandWrite_answers {w : Word} {s : State} (busy : s.status.busy = false) :
    ∃ t, commandWrite w s = .next t := by
  rcases commandWrite_cases w s busy with ⟨_, e⟩ | ⟨_, _, _, e⟩ | ⟨_, _, _, e⟩ <;> exact ⟨_, e⟩

/-- No write stops the machine (R63, R67, R68). -/
theorem busWrite_answers (off : Offset) (n : Nat) (v : Word) (s : State) : ∃ t, busWrite off n v s = .next t := by
  rcases busWrite_cases off n v s with ⟨_, e⟩ | ⟨_, _, e⟩ | ⟨_, busy, _, e⟩ | ⟨_, _, _, e⟩
  · exact ⟨_, e⟩
  · exact ⟨_, e⟩
  · exact e ▸ commandWrite_answers (s := reply .ok s) busy
  · exact ⟨_, e⟩

/-- Settles O53: only a completion could stop, and the word in flight is legal. -/
theorem consistentStateNeverStops : Obligations.ConsistentStateNeverStops := by
  intro s hc
  unfold StepSafe step
  cases nextEvent s with
  | read off n => exact ⟨_, rfl⟩
  | write off n v => exact busWrite_answers off n v _
  | complete =>
    cases busy : s.status.busy with
    | false => exact ⟨_, coreTurn_idle (takeEvent s) busy⟩
    | true =>
      obtain ⟨i, decoded, _⟩ := hc.inFlight busy
      exact ⟨_, coreTurn_busy (takeEvent s) i busy decoded⟩
  | reset => exact ⟨_, rfl⟩

/-- One step takes one event from the list (R73). -/
theorem step_inbox {s t : State} (h : step s = .next t) : t.inbox = s.inbox.tail := by
  cases step_kind s t h with
  | quiet _ _ _ _ _ result => simp [result]
  | dropped _ _ _ _ _ result => simp [result]
  | started _ _ _ _ _ _ _ result => simp [result]
  | raised _ _ _ _ _ _ result => simp [result]
  | written _ _ _ _ _ _ result => simp [result]
  | completed _ _ _ _ result => simp [result]
  | reset _ result => simp [result]

theorem run_one {s t : State} (h : step s = .next t) : Host.Core.run core 1 s = .next t :=
  run_succ 0 s t h

/-- Settles O20, by induction on the events listed: each step keeps the invariants, so none stops, and at the end of
the list the core has its turn. -/
theorem commandInFlightEnds : Obligations.CommandInFlightEnds := by
  intro s hc busy
  induction hi : s.inbox generalizing s with
  | nil =>
    obtain ⟨i, decoded, _⟩ := hc.inFlight busy
    exact ⟨1, _, le_rfl, run_one ((step_nil s hi).trans (coreTurn_busy s i busy decoded)), rfl⟩
  | cons e rest ih =>
    obtain ⟨t, h⟩ := consistentStateNeverStops s hc
    cases ended : t.status.busy with
    | false => exact ⟨1, t, by simp, run_one h, ended⟩
    | true =>
      obtain ⟨k, u, bound, run, idle⟩ := ih t (stepKeepsConsistent s t hc h) ended (by rw [step_inbox h, hi]; rfl)
      exact ⟨k + 1, u, Nat.succ_le_succ bound, (run_succ k s t h).trans run, idle⟩

end Sys2Proof.Machine
end

section
/-! PROOFS. Transactions and the flags over the bus: the word of `STATUS` (10_state.md R31), reads while `BUSY`=1
(20_memory.md R65), packing (R66), and a written word read back (R64, R67). -/

namespace Sys2Proof.Machine

/-! ## The word of `STATUS` (R31) -/

/-- Settles O10: all 512 values of the fields. -/
theorem statusWordFields : Obligations.StatusWordFields := by
  rintro ⟨busy, done, keyValid, errf, ovr, ecode⟩
  revert busy done keyValid errf ovr ecode
  decide +kernel

/-! ## Reads while `BUSY`=1 (R65) -/

/-- A step that takes an admitted read while `BUSY`=1 records the reply, and counts the draw of a data register (R65). -/
theorem step_read_busy {s : State} {off : Offset} {rest : List Event} (hi : s.inbox = .read off 4 :: rest)
    (busy : s.status.busy = true) (aligned : off.toNat % 4 = 0) :
    step s = .next
      { s with
        inbox := rest
        replies := .value (if (targetAt off).isData then Config.busyRead s.draws else readTarget (targetAt off) s)
          :: s.replies
        draws := if (targetAt off).isData then s.draws + 1 else s.draws } := by
  have ha : admitted off 4 = true := (admitted_iff off 4).2 ⟨rfl, aligned⟩
  have same : readTarget (targetAt off) { s with inbox := rest } = readTarget (targetAt off) s := by
    cases targetAt off <;> rfl
  rw [step_cons s _ rest hi, handle, busRead, if_pos ha]
  simp only [reply, readValue, busy, Bool.true_and, same]

/-- From 0x10 on every aligned offset but the reserved word 0x3C holds a data register (R61, R65). -/
theorem isData_targetAt : ∀ off : Offset, off.toNat % 4 = 0 → 0x10 ≤ off.toNat → off ≠ 0x3C →
    (targetAt off).isData = true := by
  decide +kernel

/-- Settles O12: the word is a data register's. -/
theorem busyDataReadIsFreshDraw : Obligations.BusyDataReadIsFreshDraw := by
  intro s off rest hi busy aligned hl notReserved
  simp only [step_read_busy hi busy aligned, isData_targetAt off aligned hl notReserved, if_true]

/-- Settles O11: the control words are not drawn, and the word of `STATUS` shows its fields. -/
theorem busyReadExactForControlWords : Obligations.BusyReadExactForControlWords := by
  intro s off rest hi busy aligned
  refine ⟨_, _, step_read_busy hi busy aligned, ?zero, ?status, ?ecmd, fun hc => ?flags⟩
  case zero => rintro (rfl | rfl | rfl) <;> rfl
  case status => rintro rfl; rfl
  case ecmd => rintro rfl; rfl
  case flags =>
    rintro rfl
    obtain ⟨done, errf⟩ := hc.busyQuiet busy
    obtain ⟨bit0, bit1, -, bit3, -⟩ := statusWordFields s.status
    exact ⟨bit0.trans busy, bit1.trans done, bit3.trans errf⟩

/-! ## Packing (R66) -/

/-- Byte `j` of a bus word made of four bytes is the `j`-th of them. -/
theorem wordByte_littleEndianWord (b : Fin 4 → Byte) (j : Fin 4) :
    wordByte (littleEndianWord (b 0) (b 1) (b 2) (b 3)) j = b j := by
  ext i hi
  fin_cases j <;> interval_cases i <;> simp [wordByte, littleEndianWord]

/-- Bit `i` of a bus word is bit `i mod 8` of its byte `i div 8`. -/
theorem getElem_eq_wordByte (v : Word) (i : Nat) (h : i < 32) :
    v[i] = (wordByte v ⟨i / 8, by omega⟩)[i % 8] := by
  simp [wordByte, Nat.div_add_mod, h]

/-- A bus word is its four bytes. -/
theorem word_ext {v w : Word} (h : ∀ j, wordByte v j = wordByte w j) : v = w := by
  ext i hi
  rw [getElem_eq_wordByte, getElem_eq_wordByte, h]

theorem littleEndianWord_wordByte (v : Word) :
    littleEndianWord (wordByte v 0) (wordByte v 1) (wordByte v 2) (wordByte v 3) = v :=
  word_ext (wordByte_littleEndianWord (wordByte v))

/-- Settles O18: the two ways of packing byte by byte, and the example of R66. -/
theorem packingIsLittleEndian : Obligations.PackingIsLittleEndian := by
  refine ⟨fun A k => ⟨packColumn_eq A k, fun j => ?byte⟩,
    fun A k v => ⟨getElem_setColumn_same A k v, getElem_setColumn_other A k v⟩, by decide +kernel⟩
  case byte =>
    calc (packColumn A k).extractLsb' (8 * j.val) 8 = cell A j k := wordByte_littleEndianWord (fun r => cell A r k) j
      _ = A[4 * k.val + j.val] := by simp only [cell, Nat.add_comm]

/-! ## A written word read back (R64, R67) -/

/-- A word written to a byte array reads back whole. -/
@[simp] theorem packColumn_setColumn (A : Block) (k : Fin 4) (v : Word) : packColumn (setColumn A k v) k = v := by
  simp only [packColumn, cell_setColumn, if_true, littleEndianWord_wordByte]

/-- The words of `ST` and `KEY`, and `MPB`, `MPE`, `MPM`: the offsets whose word is kept as it is written (R61, R67). -/
theorem readTarget_writeTarget_word {off : Offset} (v : Word) (s : State) (aligned : off.toNat % 4 = 0)
    (word : (0x10 ≤ off.toNat ∧ off.toNat < 0x30) ∨ (0x40 ≤ off.toNat ∧ off.toNat < 0x4C)) :
    readTarget (targetAt off) (writeTarget (targetAt off) v s) = v := by
  obtain ⟨hl, hu⟩ | ⟨hl, hu⟩ | rfl | rfl | rfl : (0x10 ≤ off.toNat ∧ off.toNat < 0x20) ∨
      (0x20 ≤ off.toNat ∧ off.toNat < 0x30) ∨ off = 0x40 ∨ off = 0x44 ∨ off = 0x48 := by bv_omega
  · rw [targetAt_eq_st_columnOf hl hu]; exact packColumn_setColumn s.st _ v
  · rw [targetAt_eq_key_columnOf hl hu]; exact packColumn_setColumn s.key _ v
  · rfl
  · rfl
  · rfl

/-- Settles O17: after a write to `CMD` the read is only answered; after any other the register holds what was
written. -/
theorem writtenWordReadsBack : Obligations.WrittenWordReadsBack := by
  intro s off v rest hi busy aligned
  by_cases target : targetAt off = .cmd
  · obtain rfl := targetAt_eq_cmd off aligned target
    obtain ⟨t, write⟩ : ∃ t, step s = .next t := (step_cons s _ _ hi).symm ▸ busWrite_answers _ _ _ _
    have inbox : t.inbox = .read 0x00 4 :: rest := by rw [step_inbox write, hi]; rfl
    obtain ⟨r, d, read⟩ := busRead_eq 0x00 4 { t with inbox := rest }
    exact ⟨t, _, write, step_cons t _ rest inbox, by rw [read], by simp, by simp⟩
  · have write := step_write_register hi busy aligned rfl target
    refine ⟨_, _, write, step_read_idle (writeTarget_inbox _ _ _) (by simpa using busy) aligned, rfl, fun word => ?word,
      ?byte⟩
    case word => rw [readTarget_writeTarget_word v _ aligned word, writeTarget_replies]
    case byte => rintro (rfl | rfl) <;> rfl

end Sys2Proof.Machine
end

section
/-! PROOFS. The field product of bytes (40_gf256.md section 1): the product of the definition and the datapath's are
linear over XOR in each factor, so that they are known from the eight powers of two. -/

namespace Sys2Proof.Machine

/-! ## Functions of a byte that are linear over XOR -/

/-- `f` takes XOR to XOR. -/
def XorLinear (f : Byte → Byte) : Prop := ∀ a b : Byte, f (a ^^^ b) = f a ^^^ f b

/-- The part of `x` at bit `i`. -/
def bitPart (x : Byte) (i : Nat) : Byte := if x.getLsbD i then 1#8 <<< i else 0#8

/-- A byte is the XOR of its bits. -/
theorem xor_bitPart : ∀ x : Byte,
    bitPart x 0 ^^^ bitPart x 1 ^^^ bitPart x 2 ^^^ bitPart x 3 ^^^ bitPart x 4 ^^^ bitPart x 5 ^^^ bitPart x 6
      ^^^ bitPart x 7 = x := by
  decide +kernel

namespace XorLinear

variable {f g : Byte → Byte}

theorem map_zero (hf : XorLinear f) : f 0#8 = 0#8 := by
  simpa using hf 0#8 0#8

/-- A linear function is known from the powers of two. -/
theorem congr (hf : XorLinear f) (hg : XorLinear g) (powers : ∀ i < 8, f (1#8 <<< i) = g (1#8 <<< i)) (x : Byte) :
    f x = g x := by
  have part (i : Nat) (hi : i < 8) : f (bitPart x i) = g (bitPart x i) := by
    unfold bitPart
    split
    · exact powers i hi
    · rw [hf.map_zero, hg.map_zero]
  rw [← xor_bitPart x]
  simp [hf _ _, hg _ _, part]

theorem comp (hf : XorLinear f) (hg : XorLinear g) : XorLinear fun x => f (g x) := fun a b => by
  simp only [hg a b, hf _ _]

end XorLinear

/-- Passes that each take XOR to XOR do so together. -/
theorem foldl_xor {w : Nat} {f g h : BitVec w → Nat → BitVec w}
    (pass : ∀ p q i, h (p ^^^ q) i = f p i ^^^ g q i) (is : List Nat) (p q : BitVec w) :
    is.foldl h (p ^^^ q) = is.foldl f p ^^^ is.foldl g q := by
  induction is generalizing p q with
  | nil => rfl
  | cons i is ih => simp only [List.foldl_cons, pass, ih]

/-- A pass that adds one of two terms, chosen by a bit, is linear in the bit and the running value. -/
theorem xor_ite_xor {w : Nat} (p q a : BitVec w) (b c : Bool) :
    (if (b ^^ c) = true then p ^^^ q ^^^ a else p ^^^ q) =
      (if b = true then p ^^^ a else p) ^^^ (if c = true then q ^^^ a else q) := by
  have twice : p ^^^ q = (p ^^^ a) ^^^ (q ^^^ a) :=
    calc p ^^^ q = p ^^^ q ^^^ (a ^^^ a) := by simp
      _ = (p ^^^ a) ^^^ (q ^^^ a) := by ac_rfl
  cases b <;> cases c
  · rfl
  · exact BitVec.xor_assoc p q a
  · exact (by ac_rfl : p ^^^ q ^^^ a = (p ^^^ a) ^^^ q)
  · exact twice

/-- A pass that adds its term or not, as a bit says, is linear in the term and the running value. -/
theorem ite_xor_xor {w : Nat} (b : Prop) [Decidable b] (p q a c : BitVec w) :
    (if b then p ^^^ q ^^^ (a ^^^ c) else p ^^^ q) = (if b then p ^^^ a else p) ^^^ (if b then q ^^^ c else q) := by
  split
  · ac_rfl
  · rfl

/-! ## The product of the definition (R120) -/

theorem gfmulUnreduced_xor_right (a b c : Byte) :
    gfmulUnreduced a (b ^^^ c) = gfmulUnreduced a b ^^^ gfmulUnreduced a c :=
  foldl_xor (fun p q i => by rw [BitVec.getLsbD_xor]; exact xor_ite_xor p q _ _ _) _ 0 0

theorem gfmulUnreduced_xor_left (a b c : Byte) :
    gfmulUnreduced (a ^^^ b) c = gfmulUnreduced a c ^^^ gfmulUnreduced b c :=
  foldl_xor (fun p q i => by
    rw [BitVec.zeroExtend, BitVec.setWidth_xor, BitVec.shiftLeft_xor_distrib]; exact ite_xor_xor _ p q _ _) _ 0 0

theorem gfReduce_xor (p q : BitVec 15) : gfReduce (p ^^^ q) = gfReduce p ^^^ gfReduce q :=
  foldl_xor (fun p q i => by rw [BitVec.getLsbD_xor]; exact xor_ite_xor p q _ _ _) _ p q

theorem gfmulDef_right_linear (a : Byte) : XorLinear (gfmulDef a) := fun b c => by
  simp only [gfmulDef, gfmulUnreduced_xor_right, gfReduce_xor, BitVec.truncate, BitVec.setWidth_xor]

theorem gfmulDef_left_linear (b : Byte) : XorLinear fun a => gfmulDef a b := fun a c => by
  simp only [gfmulDef, gfmulUnreduced_xor_left, gfReduce_xor, BitVec.truncate, BitVec.setWidth_xor]

/-! ## The datapath's product (R121) -/

theorem xtime_linear : XorLinear xtime := fun a b => by
  simp only [xtime, BitVec.getLsbD_xor, BitVec.shiftLeft_xor_distrib]
  exact xor_ite_xor _ _ _ _ _

/-- The loop is linear in the second factor and the running product. -/
theorem gfmulLoop_xor_right (k : Nat) (a b c p q : Byte) :
    gfmulLoop k a (b ^^^ c) (p ^^^ q) = gfmulLoop k a b p ^^^ gfmulLoop k a c q := by
  induction k generalizing a b c p q with
  | zero => rfl
  | succ k ih =>
    rw [gfmulLoop, gfmulLoop, gfmulLoop, BitVec.ushiftRight_xor_distrib, BitVec.getLsbD_xor, xor_ite_xor, ih]

/-- The loop is linear in the first factor and the running product. -/
theorem gfmulLoop_xor_left (k : Nat) (a b c p q : Byte) :
    gfmulLoop k (a ^^^ b) c (p ^^^ q) = gfmulLoop k a c p ^^^ gfmulLoop k b c q := by
  induction k generalizing a b c p q with
  | zero => rfl
  | succ k ih => rw [gfmulLoop, gfmulLoop, gfmulLoop, xtime_linear, ite_xor_xor, ih]

theorem gfmul_right_linear (a : Byte) : XorLinear (gfmul a) := fun b c => gfmulLoop_xor_right 8 a b c 0 0

theorem gfmul_left_linear (b : Byte) : XorLinear fun a => gfmul a b := fun a c => gfmulLoop_xor_left 8 a c b 0 0

theorem gfmul_comm_powers : ∀ i < 8, ∀ j < 8,
    gfmul (1#8 <<< i) (1#8 <<< j) = gfmul (1#8 <<< j) (1#8 <<< i) := by decide +kernel

theorem gfmul_comm (a b : Byte) : gfmul a b = gfmul b a :=
  (gfmul_left_linear b).congr (gfmul_right_linear b)
    (fun i hi => (gfmul_right_linear _).congr (gfmul_left_linear _) (gfmul_comm_powers i hi) b) a

/-- The two products agree on the powers of two. -/
theorem gfmul_eq_gfmulDef_powers : ∀ i < 8, ∀ j < 8,
    gfmul (1#8 <<< i) (1#8 <<< j) = gfmulDef (1#8 <<< i) (1#8 <<< j) := by decide +kernel

/-- Settles O39: both products are linear in each factor. -/
theorem gfmulLoopIsTheProduct : Obligations.GfmulLoopIsTheProduct := fun a b =>
  (gfmul_left_linear b).congr (gfmulDef_left_linear b)
    (fun i hi => (gfmul_right_linear _).congr (gfmulDef_right_linear _) (gfmul_eq_gfmulDef_powers i hi) b) a

/-! ## The field laws -/

theorem gfmul_assoc_powers : ∀ i < 8, ∀ j < 8, ∀ k < 8,
    gfmul (gfmul (1#8 <<< i) (1#8 <<< j)) (1#8 <<< k) = gfmul (1#8 <<< i) (gfmul (1#8 <<< j) (1#8 <<< k)) := by
  decide +kernel

/-- Both sides are linear in each of the three factors. -/
theorem gfmul_assoc (a b c : Byte) : gfmul (gfmul a b) c = gfmul a (gfmul b c) := by
  refine ((gfmul_left_linear c).comp (gfmul_left_linear b)).congr (gfmul_left_linear _) (fun i hi => ?_) a
  refine ((gfmul_left_linear c).comp (gfmul_right_linear _)).congr
    ((gfmul_right_linear _).comp (gfmul_left_linear c)) (fun j hj => ?_) b
  exact (gfmul_right_linear _).congr ((gfmul_right_linear _).comp (gfmul_right_linear _))
    (gfmul_assoc_powers i hi j hj) c

/-- A nonzero byte has an inverse: the one the S-box is made with (R130). -/
theorem exists_gfmul_eq_one {a : Byte} (ha : a ≠ 0) : ∃ b, gfmul b a = 1 :=
  ⟨sboxPreimage a, by rw [gfmul_comm, gfmulLoopIsTheProduct, gfmulDef_sboxPreimage a ha]⟩

theorem eq_zero_or_eq_zero_of_gfmul {a b : Byte} (h : gfmul a b = 0) : a = 0 ∨ b = 0 := by
  refine or_iff_not_imp_left.2 fun ha => ?_
  obtain ⟨c, inverse⟩ := exists_gfmul_eq_one ha
  calc b = gfmul (gfmul c a) b := by rw [inverse]; exact (one_gfmul b).symm
    _ = gfmul c 0 := by rw [gfmul_assoc, h]
    _ = 0 := gfmul_zero c

/-- The second pass adds `xtime a`; no other has a bit of 2 to act on. -/
theorem gfmul_two (a : Byte) : gfmul a 2 = xtime a :=
  calc gfmul a 2 = gfmulLoop 6 (xtime (xtime a)) 0#8 (0#8 ^^^ xtime a) := rfl
    _ = xtime a := by rw [gfmulLoop_right_zero, BitVec.zero_xor]

theorem gfmul_three (a : Byte) : gfmul a 3 = xtime a ^^^ a := by
  calc gfmul a 3 = gfmul a 2 ^^^ gfmul a 1 := gfmul_right_linear a 2 1
    _ = xtime a ^^^ a := by rw [gfmul_two]; exact congrArg _ (gfmul_one a)

/-- Settles O41, law by law. -/
theorem gfmulFieldLaws : Obligations.GfmulFieldLaws :=
  ⟨gfmul_comm, gfmul_one, gfmul_zero, gfmul_right_linear, gfmul_assoc, fun _ _ => eq_zero_or_eq_zero_of_gfmul,
    fun a => ⟨gfmul_two a, gfmul_three a⟩⟩

end Sys2Proof.Machine
end

section
/-! PROOFS. The key schedule as round keys (42_aes_keyexp_cipher.md R153), and the command KEYEXP (R154). -/

namespace Sys2Proof.Machine

/-! ## Round keys (R153) -/

/-- Round key `r` is the window of four words from word `4r`. -/
theorem getElem_keyExpansion (K : Block) (r : Nat) (h : r < 11) :
    (keyExpansion K)[r] = joinWords (keyWindow K (4 * r)) := by
  simp [keyExpansion]

/-- Words 0 to 3 are the columns of the key, so joined they are the key (R152). -/
theorem joinWords_keyWindow_zero (K : Block) : joinWords (keyWindow K 0) = K :=
  block_ext _ _ fun j c => by simp [keyWindow]

/-- A block holds the bytes of its four words. -/
theorem joinWords_injective : Function.Injective joinWords := by
  intro v w h
  refine Vector.ext fun c hc => Vector.ext fun j hj => ?_
  simpa using congrArg (cell · ⟨j, hj⟩ ⟨c, hc⟩) h

/-- The window moves on by one word (R152). -/
theorem keyWindow_succ (K : Block) (n : Nat) :
    keyWindow K (n + 1) =
      #v[(keyWindow K n)[1], (keyWindow K n)[2], (keyWindow K n)[3],
        nextKeyWord (n + 4) (keyWindow K n)[0] (keyWindow K n)[3]] :=
  rfl

/-- A window of the schedule depends on any earlier one only (R152). -/
theorem keyWindow_add_congr {K L : Block} {n : Nat} (h : keyWindow K n = keyWindow L n) (k : Nat) :
    keyWindow K (n + k) = keyWindow L (n + k) := by
  induction k with
  | zero => exact h
  | succ k ih =>
    rw [← Nat.add_assoc, keyWindow_succ, keyWindow_succ, ih]

/-- Settles O37: a round key is four words, the first is the key, and four equal words give the next four. -/
theorem roundKeysGroupTheWords : Obligations.RoundKeysGroupTheWords := by
  refine ⟨fun K r c j => ?words, fun K => ?first, fun K L r same => ?next⟩
  case words =>
    calc (keyExpansion K)[r.val][4 * c.val + j.val] = cell (joinWords (keyWindow K (4 * r.val))) j c := by
          simp only [getElem_keyExpansion, cell, Nat.add_comm]
      _ = (keyWord K (4 * r.val + c.val))[j] := by
          rw [cell_joinWords]; exact congrArg (·[j]) (getElem_keyWindow K _ c.val c.isLt)
  case first => exact (getElem_keyExpansion K 0 (by decide)).trans (joinWords_keyWindow_zero K)
  case next =>
    rw [getElem_keyExpansion, getElem_keyExpansion] at same ⊢
    exact congrArg joinWords (keyWindow_add_congr (joinWords_injective same) 4)

/-- Settles O34, from the shared completion. -/
theorem keyexpExpandsTheKey : Obligations.KeyexpExpandsTheKey := fun s busy => exec_busy .keyexp s rfl busy

end Sys2Proof.Machine
end

section
/-! PROOFS. The modular power: exactness, the corner cases (43_modexp.md section 1) and the RSA round trip (section 2). -/

namespace Sys2Proof.Machine

/-! ## Exactness, and the corner cases -/

/-- Settles O42, from the loop's invariant `toNat_modpowLoop`. -/
theorem modpowLoopIsExact : Obligations.ModpowLoopIsExact := fun b e _ hm => toNat_modpow b e hm

/-- The power as a word: the word whose number is congruent to the natural-number power (R170). -/
theorem modpow_eq_of_modEq {b e m r : Word} (hr : r.toNat < m.toNat)
    (h : b.toNat ^ e.toNat ≡ r.toNat [MOD m.toNat]) : modpow b e m = r := by
  have hm : m ≠ 0 := by rintro rfl; exact Nat.not_lt_zero _ hr
  refine BitVec.eq_of_toNat_eq ?_
  calc (modpow b e m).toNat = b.toNat ^ e.toNat % m.toNat := modpowLoopIsExact b e m hm
    _ = r.toNat % m.toNat := h
    _ = r.toNat := Nat.mod_eq_of_lt hr

/-- The powers of `-1` alternate. -/
theorem pred_pow_modEq {m : Nat} (hm : 1 < m) (e : Nat) :
    (m - 1) ^ e ≡ if e % 2 = 0 then 1 else m - 1 [MOD m] := by
  have square : (m - 1) ^ 2 ≡ 1 [MOD m] := by
    obtain ⟨n, rfl⟩ : ∃ n, m = n + 2 := ⟨m - 2, by omega⟩
    calc (n + 1) ^ 2 = 1 + (n + 2) * n := by ring
      _ ≡ 1 [MOD n + 2] := Nat.add_mul_mod_self_left 1 (n + 2) n
  calc (m - 1) ^ e = ((m - 1) ^ 2) ^ (e / 2) * (m - 1) ^ (e % 2) := by rw [← pow_mul, ← pow_add, Nat.div_add_mod]
    _ ≡ 1 ^ (e / 2) * (m - 1) ^ (e % 2) [MOD m] := (square.pow _).mul_right _
    _ = if e % 2 = 0 then 1 else m - 1 := by
      rcases Nat.mod_two_eq_zero_or_one e with even | odd
      · simp [even]
      · simp [odd]

/-- The base may be reduced first. -/
theorem modpow_umod_base (b e : Word) {m : Word} (hm : m ≠ 0) : modpow b e m = modpow (b % m) e m := by
  refine BitVec.eq_of_toNat_eq ?_
  rw [modpowLoopIsExact b e m hm, modpowLoopIsExact (b % m) e m hm, BitVec.toNat_umod, Nat.pow_mod]

/-- Settles O44: each case by the congruence of the power to its result. -/
theorem modpowCornerCases : Obligations.ModpowCornerCases := by
  refine ⟨fun b m hm => ?exponentZero, fun b e => ?modulusOne, fun e m he hm => ?baseZero,
    fun b e m hm => modpow_umod_base b e hm, fun b e m hm hb => ?baseOne, fun b m hm => ?exponentOne,
    fun e m hm => ?basePred⟩
  case exponentZero => exact modpow_eq_of_modEq hm (.refl _)
  case modulusOne => exact modpow_eq_of_modEq (by decide) Nat.modEq_one
  case baseZero =>
    have exponent : e.toNat ≠ 0 := by bv_omega
    exact modpow_eq_of_modEq (by bv_omega) (by simp [exponent, Nat.ModEq.refl])
  case baseOne =>
    rw [modpow_umod_base b e (by bv_omega), hb]
    exact modpow_eq_of_modEq hm (by simp [Nat.ModEq.refl])
  case exponentOne =>
    have remainder : (b % m).toNat = b.toNat % m.toNat := BitVec.toNat_umod
    refine modpow_eq_of_modEq (remainder ▸ Nat.mod_lt _ (by bv_omega)) ?_
    rw [remainder]
    exact (pow_one b.toNat).symm ▸ (Nat.mod_modEq _ _).symm
  case basePred =>
    have pred : (m - 1).toNat = m.toNat - 1 := by bv_omega
    have result : (if e.toNat % 2 = 0 then 1 else m - 1 : Word).toNat =
        if e.toNat % 2 = 0 then 1 else m.toNat - 1 := by
      rw [← pred]; split <;> rfl
    refine modpow_eq_of_modEq ?_ ?_
    · rw [result]; split <;> omega
    · rw [result, pred]; exact pred_pow_modEq hm e.toNat

/-! ## The RSA round trip -/

/-- Fermat: exponents that are 1 modulo `p - 1` leave every number as it is, modulo the prime `p`. -/
theorem pow_modEq_self_of_prime {p : Nat} (hp : p.Prime) (M k : Nat) : M ^ ((p - 1) * k + 1) ≡ M [MOD p] := by
  have := Fact.mk hp
  rw [← ZMod.natCast_eq_natCast_iff]
  push_cast
  by_cases h : (M : ZMod p) = 0
  · simp [h]
  · rw [pow_succ, pow_mul, ZMod.pow_card_sub_one_eq_one h, one_pow, one_mul]

/-- Exponents that are 1 modulo `(p - 1) (q - 1)` leave every number as it is, modulo `p q`. -/
theorem pow_modEq_self_of_primes {p q n : Nat} (hp : p.Prime) (hq : q.Prime) (distinct : p ≠ q)
    (hn : n % ((p - 1) * (q - 1)) = 1) (M : Nat) : M ^ n ≡ M [MOD p * q] := by
  have exponent : n = (p - 1) * (q - 1) * (n / ((p - 1) * (q - 1))) + 1 := by
    conv_lhs => rw [← Nat.div_add_mod n ((p - 1) * (q - 1)), hn]
  refine (Nat.modEq_and_modEq_iff_modEq_mul ((Nat.coprime_primes hp hq).2 distinct)).1 ⟨?_, ?_⟩
  · rw [exponent, mul_assoc]
    exact pow_modEq_self_of_prime hp M _
  · rw [exponent, mul_comm (p - 1), mul_assoc]
    exact pow_modEq_self_of_prime hq M _

/-- Settles O45: the two powers are one, and its exponent is 1 modulo `(p - 1) (q - 1)`. -/
theorem rsaRoundTrip : Obligations.RsaRoundTrip := by
  intro p q e d E D N M hp hq distinct inverse hN hE hD hM
  have modulus : N ≠ 0 := by rintro rfl; exact Nat.not_lt_zero _ hM
  refine modpow_eq_of_modEq hM ?_
  rw [modpowLoopIsExact M E N modulus, hE, hD]
  calc (M.toNat ^ e % N.toNat) ^ d ≡ (M.toNat ^ e) ^ d [MOD N.toNat] := (Nat.mod_modEq _ _).pow d
    _ = M.toNat ^ (e * d) := (pow_mul _ e d).symm
    _ ≡ M.toNat [MOD N.toNat] := hN ▸ pow_modEq_self_of_primes hp hq distinct inverse M.toNat

end Sys2Proof.Machine
end

section
/-! PROOFS. The steps of a command: what a step runs (30_encoding.md section 5), the checks at issue (R97, R202), the
completion (R98), and the frame of each command (10_state.md section 2). -/

namespace Sys2Proof.Machine

/-! ## A step runs the decoded command (30_encoding.md section 5) -/

theorem runWord_of_decode {w : Word} {i : Instr} (s : State) (decoded : decode w = .ok i) : runWord w s = exec i s := by
  simp only [runWord, decoded]

/-- Settles O5: the write is taken while the port is open, so its word is decoded. -/
theorem commandWriteRunsDecodedCommand : Obligations.CommandWriteRunsDecodedCommand := by
  intro s v i rest hi busy errf decoded
  calc step s = commandWrite v { s with inbox := rest, replies := .ok :: s.replies } := step_write_idle hi busy rfl
    _ = runWord v { s with inbox := rest, replies := .ok :: s.replies } := if_neg (by simp [errf])
    _ = _ := runWord_of_decode _ decoded

/-- The core's turn while `BUSY`=1 runs the command in flight (R98). -/
theorem coreTurn_eq_exec {s : State} {i : Instr} (busy : s.status.busy = true) (decoded : decode s.ifc = .ok i) :
    coreTurn s = exec i s := by
  rw [coreTurn, if_pos busy, runWord_of_decode s decoded]

/-- Settles O6: the core's turn comes at an empty list, and where the list says. -/
theorem completionRunsCommandInFlight : Obligations.CompletionRunsCommandInFlight := by
  refine fun s i busy decoded => ⟨fun hi => ?_, fun rest hi => ?_⟩
  · exact (step_nil s hi).trans (coreTurn_eq_exec busy decoded)
  · exact (step_cons s .complete rest hi).trans (coreTurn_eq_exec (s := { s with inbox := rest }) busy decoded)

theorem decode_of_decodeTableWord {nbits w : Nat} {i : Instr} (h : decodeTableWord nbits w = some i) :
    decode (tableWord nbits w) = .ok i := by
  unfold decodeTableWord at h
  split at h
  · cases hd : decode (tableWord nbits w) with
    | ok j => rw [hd] at h; exact congrArg _ (Option.some.inj h)
    | error e => rw [hd] at h; cases h
  · cases h

/-- Settles O7: placing a word lists its `CMD` write first and opens the port (log entry 9). -/
theorem placedWordRunsNext : Obligations.PlacedWordRunsNext := fun s nbits w i h =>
  commandWriteRunsDecodedCommand (s.withFetchWord nbits w) (tableWord nbits w) i s.inbox rfl rfl rfl
    (decode_of_decodeTableWord h)

/-! ## The checks at issue (R97, R202) -/

/-- An issue whose check fails sets the error and clears `DONE`, and changes nothing else (R97, R204). -/
theorem exec_refused {i : Instr} {s : State} {code : ErrCode} (hw : i.wellFormed = true)
    (busy : s.status.busy = false) (errf : s.status.errf = false) (failed : preconditionFailure i s = some code) :
    exec i s = .next
      { s with ecmd := encode i, status := { s.status with done := false, errf := true, ecode := code.bits } } := by
  rw [exec_idle i s hw busy, failed, issue_raise _ _ _ errf]
  rfl

/-- Settles O22, from the failed check. -/
theorem keyCommandsNeedKeyValid : Obligations.KeyCommandsNeedKeyValid := by
  refine fun s busy errf keyValid => ⟨fun r hr => ?_, ?_⟩
  · exact exec_refused (i := .addroundkey r) (decide_eq_true hr) busy errf
      (preconditionFailure_noKey keyValid (.inr ⟨r, rfl⟩))
  · exact exec_refused rfl busy errf (preconditionFailure_noKey keyValid (.inl rfl))

/-- Settles O23, from the failed checks, the modulus's first. -/
theorem modularCommandsCheckOperands : Obligations.ModularCommandsCheckOperands := by
  refine fun s busy errf => ⟨fun zero => ⟨?_, ?_⟩, fun nonzero range => ?_⟩
  · exact exec_refused (code := .modZero) rfl busy errf (by simp [preconditionFailure, zero])
  · exact exec_refused (code := .modZero) rfl busy errf (by simp [preconditionFailure, zero])
  · exact exec_refused (code := .range) rfl busy errf (by
      simp only [preconditionFailure, if_pos nonzero, if_neg (Nat.not_lt.2 range)])

/-! ## The completion (R98) -/

/-- Settles O21: a completion sets the flags on the command's effect, which leaves the rest. -/
theorem completionClearsBusyAndSetsDone : Obligations.CompletionClearsBusyAndSetsDone := by
  intro s rest hi
  rw [step_cons s .complete rest hi, handle]
  refine ⟨fun busy => coreTurn_idle { s with inbox := rest } busy, fun busy i decoded =>
    ⟨_, coreTurn_busy { s with inbox := rest } i busy decoded, rfl, rfl, ?_⟩⟩
  simp

/-! ## Frames: what a command leaves alone (10_state.md section 2) -/

/-- `t` has the data registers of `s`, `KEYVALID` and `OVR` among them, and the world outside as `s` has it: all but
`BUSY`, `DONE`, `IFC` and the record of an error. -/
structure SameData (s t : State) : Prop where
  st : t.st = s.st
  key : t.key = s.key
  rk : t.rk = s.rk
  gfa : t.gfa = s.gfa
  gfb : t.gfb = s.gfb
  gfp : t.gfp = s.gfp
  mpb : t.mpb = s.mpb
  mpe : t.mpe = s.mpe
  mpm : t.mpm = s.mpm
  mpr : t.mpr = s.mpr
  keyValid : t.status.keyValid = s.status.keyValid
  ovr : t.status.ovr = s.status.ovr
  inbox : t.inbox = s.inbox
  replies : t.replies = s.replies
  draws : t.draws = s.draws

/-- `t` has the record of an error as `s` has it (R35, R37). -/
structure SameError (s t : State) : Prop where
  ecmd : t.ecmd = s.ecmd
  errf : t.status.errf = s.status.errf
  ecode : t.status.ecode = s.status.ecode

/-- Every word of the window but `STATUS` and `ECMD` shows a data register (R61). -/
theorem SameData.readTarget_eq {s t : State} (h : SameData s t) {a : Target} (status : a ≠ .status)
    (ecmd : a = .ecmd → t.ecmd = s.ecmd) : readTarget a t = readTarget a s := by
  cases a with
  | status => exact absurd rfl status
  | ecmd => exact ecmd rfl
  | st k => exact congrArg (packColumn · k) h.st
  | key k => exact congrArg (packColumn · k) h.key
  | rk r c => exact readTarget_rk_eq h.rk r c
  | gfa => exact congrArg (BitVec.zeroExtend 32) h.gfa
  | gfb => exact congrArg (BitVec.zeroExtend 32) h.gfb
  | gfp => exact congrArg (BitVec.zeroExtend 32) h.gfp
  | mpb => exact h.mpb
  | mpe => exact h.mpe
  | mpm => exact h.mpm
  | mpr => exact h.mpr
  | cmd => rfl
  | reserved => rfl

/-- An issue writes no data register (R97). -/
theorem issue_sameData (w : Word) (failure : Option ErrCode) (s : State) : SameData s (issue w failure s) := by
  rcases issue_cases w failure s with ⟨_, e⟩ | ⟨_, _, e⟩ | ⟨_, _, _, e⟩ <;> rw [e] <;> constructor <;> rfl

/-- An issue with no check to fail records no error (R97). -/
theorem issue_none_sameError (w : Word) (s : State) : SameError s (issue w none s) := by
  rcases issue_cases w none s with ⟨_, e⟩ | ⟨_, _, e⟩ | ⟨_, _, failed, _⟩
  · rw [e]; constructor <;> rfl
  · rw [e]; constructor <;> rfl
  · cases failed

/-- A completion sets `BUSY` and `DONE` on the command's effect, and nothing else (R98). -/
theorem finishCommand_sameData (s : State) : SameData s (finishCommand s) := by constructor <;> rfl

section

variable {i : Instr} {s t : State} (h : exec i s = .next t)
include h

/-- While `BUSY`=0 a command writes no data register (R26, R96). -/
theorem exec_sameData_of_idle (busy : s.status.busy = false) : SameData s t := by
  cases hw : i.wellFormed with
  | true => cases (exec_idle i s hw busy).symm.trans h; exact issue_sameData _ _ s
  | false =>
    rw [exec_illFormed i s hw, illegalCommand, busy] at h
    cases h
    exact issue_sameData _ _ s

/-- While `BUSY`=1 a command that does not stop the machine completes (R98). -/
theorem exec_eq_completion_of_busy (busy : s.status.busy = true) : t = finishCommand (commandEffect i s) := by
  cases hw : i.wellFormed with
  | true => cases (exec_busy i s hw busy).symm.trans h; rfl
  | false => rw [exec_illFormed i s hw, illegalCommand, busy] at h; cases h

/-- A completion records no error and leaves the word in flight (R98). -/
theorem exec_sameError_of_busy (busy : s.status.busy = true) : SameError s t ∧ t.ifc = s.ifc := by
  rw [exec_eq_completion_of_busy h busy]
  exact ⟨by constructor <;> simp, by simp⟩

/-- A command with no check never records an error (R97). -/
theorem exec_sameError_of_unchecked (hw : i.wellFormed = true) (unchecked : preconditionFailure i s = none) :
    SameError s t := by
  cases busy : s.status.busy with
  | true => exact (exec_sameError_of_busy h busy).1
  | false =>
    cases (exec_idle i s hw busy).symm.trans h
    exact unchecked ▸ issue_none_sameError _ s

/-- The frame of a command whose effect on `s` is to write `x` to some registers, which hold `old`: every other data
register stays, and those too while `BUSY`=0 (R26, R96). -/
theorem exec_writes_only {α : Type} {write : α → State} {x old : α} (effect : commandEffect i s = write x)
    (unwritten : s = write old) : ∃ y, SameData (write y) t ∧ (s.status.busy = false → y = old) := by
  cases busy : s.status.busy with
  | true =>
    rw [exec_eq_completion_of_busy h busy, effect]
    exact ⟨x, finishCommand_sameData _, nofun⟩
  | false => exact ⟨old, unwritten ▸ exec_sameData_of_idle h busy, fun _ => rfl⟩

end

theorem readTarget_of_st {s : State} (A : Block) {a : Target} (h : ∀ k, a ≠ .st k) :
    readTarget a { s with st := A } = readTarget a s := by
  cases a with
  | st k => exact absurd rfl (h k)
  | _ => rfl

theorem readTarget_of_rk {s : State} (R : RoundKeys) (b : Bool) {a : Target} (status : a ≠ .status)
    (h : ∀ r c, a ≠ .rk r c) :
    readTarget a { s with rk := R, status := { s.status with keyValid := b } } = readTarget a s := by
  cases a with
  | rk r c => exact absurd rfl (h r c)
  | status => exact absurd rfl status
  | _ => rfl

theorem readTarget_of_gfp {s : State} (b : Byte) {a : Target} (h : a ≠ .gfp) :
    readTarget a { s with gfp := b } = readTarget a s := by
  cases a with
  | gfp => exact absurd rfl h
  | _ => rfl

theorem readTarget_of_mpr {s : State} (v : Word) {a : Target} (h : a ≠ .mpr) :
    readTarget a { s with mpr := v } = readTarget a s := by
  cases a with
  | mpr => exact absurd rfl h
  | _ => rfl

/-- The five commands that write `ST` write it alone (R26). -/
theorem commandEffect_eq_of_st {i : Instr}
    (hi : i = .subbytes ∨ i = .shiftrows ∨ i = .mixcolumns ∨ i = .encrypt ∨ (∃ r, i = .addroundkey r)) (s : State) :
    ∃ A, commandEffect i s = { s with st := A } := by
  rcases hi with rfl | rfl | rfl | rfl | ⟨r, rfl⟩
  · exact ⟨_, rfl⟩
  · exact ⟨_, rfl⟩
  · exact ⟨_, rfl⟩
  · exact ⟨_, rfl⟩
  · by_cases hr : r.toNat < 11
    · exact ⟨_, commandEffect_addroundkey s hr⟩
    · exact ⟨s.st, dif_neg hr⟩

/-- Settles O46: `ST` alone is written. -/
theorem stateCommandsFrame : Obligations.StateCommandsFrame := by
  intro i s t hi h
  obtain ⟨A, effect⟩ := commandEffect_eq_of_st hi s
  obtain ⟨B, d, issued⟩ := exec_writes_only (write := fun B => { s with st := B }) (old := s.st) h effect rfl
  refine ⟨d.key, d.rk, d.gfa, d.gfb, d.gfp, d.mpb, d.mpe, d.mpm, d.mpr, d.keyValid, d.ovr, d.inbox, d.replies, d.draws,
    fun a status ecmd st => ?words, fun busy => d.st.trans (issued busy), fun busy => ?completion⟩
  case words => exact (d.readTarget_eq status fun e => absurd e ecmd).trans (readTarget_of_st B st)
  case completion =>
    obtain ⟨e, ifc⟩ := exec_sameError_of_busy h busy
    exact ⟨e.ecmd, ifc, e.errf, e.ecode⟩

/-- Settles O47: `RK` and `KEYVALID` alone are written, and no check is made. -/
theorem keyexpFrame : Obligations.KeyexpFrame := by
  intro s t h
  have e := exec_sameError_of_unchecked h rfl rfl
  obtain ⟨⟨R, valid⟩, d, issued⟩ := exec_writes_only
    (write := fun x : RoundKeys × Bool => { s with rk := x.1, status := { s.status with keyValid := x.2 } })
    (x := (keyExpansion s.key, true)) (old := (s.rk, s.status.keyValid)) h rfl rfl
  refine ⟨d.st, d.key, d.gfa, d.gfb, d.gfp, d.mpb, d.mpe, d.mpm, d.mpr, d.ovr, e.ecmd, e.errf, e.ecode, d.inbox,
    d.replies, d.draws, fun a status rk => ?words, fun busy => ?issue, fun busy => (exec_sameError_of_busy h busy).2⟩
  case words => exact (d.readTarget_eq status fun _ => e.ecmd).trans (readTarget_of_rk R valid status rk)
  case issue =>
    cases issued busy
    exact ⟨d.rk, d.keyValid⟩

/-- Settles O48: `GFP` alone is written, and no check is made. -/
theorem gfmulFrame : Obligations.GfmulFrame := by
  intro s t h
  have e := exec_sameError_of_unchecked h rfl rfl
  obtain ⟨p, d, issued⟩ := exec_writes_only (write := fun p => { s with gfp := p }) (old := s.gfp) h rfl rfl
  refine ⟨d.st, d.key, d.rk, d.gfa, d.gfb, d.mpb, d.mpe, d.mpm, d.mpr, d.keyValid, d.ovr, e.ecmd, e.errf, e.ecode,
    d.inbox, d.replies, d.draws, fun a status gfp => ?words, fun busy => d.gfp.trans (issued busy),
    fun busy => (exec_sameError_of_busy h busy).2⟩
  case words => exact (d.readTarget_eq status fun _ => e.ecmd).trans (readTarget_of_gfp p gfp)

/-- Settles O49: `MPR` alone is written. -/
theorem modularCommandsFrame : Obligations.ModularCommandsFrame := by
  intro i s t hi h
  have effect : commandEffect i s = { s with mpr := modpowResult s } := by rcases hi with rfl | rfl <;> rfl
  obtain ⟨p, d, issued⟩ := exec_writes_only (write := fun p => { s with mpr := p }) (old := s.mpr) h effect rfl
  refine ⟨d.st, d.key, d.rk, d.gfa, d.gfb, d.gfp, d.mpb, d.mpe, d.mpm, d.keyValid, d.ovr, d.inbox, d.replies, d.draws,
    fun a status ecmd mpr => ?words, fun busy => d.mpr.trans (issued busy), fun busy => ?completion⟩
  case words => exact (d.readTarget_eq status fun e => absurd e ecmd).trans (readTarget_of_mpr p mpr)
  case completion =>
    obtain ⟨e, ifc⟩ := exec_sameError_of_busy h busy
    exact ⟨e.ecmd, ifc, e.errf, e.ecode⟩

/-- Settles O50: nothing is written, and no check is made. -/
theorem nopFrame : Obligations.NopFrame := by
  intro s t h
  have e := exec_sameError_of_unchecked h rfl rfl
  obtain ⟨_, d, _⟩ := exec_writes_only (write := fun _ : Unit => s) (x := ()) (old := ()) h rfl rfl
  exact ⟨⟨d.st, d.key, d.rk, d.gfa, d.gfb, d.gfp, d.mpb, d.mpe, d.mpm, d.mpr, e.ecmd, rfl, rfl, d.keyValid, e.errf,
    e.ecode⟩, d.ovr, d.inbox, d.replies, d.draws, fun a status => d.readTarget_eq status fun _ => e.ecmd,
    fun busy => (exec_sameError_of_busy h busy).2⟩

end Sys2Proof.Machine
end

section
/-! PROOFS. Who writes the key material (10_state.md sections 2 and 3), bus traffic while a command is in flight
(10_state.md section 4), and ENCRYPT as a run of the primitive commands (42_aes_keyexp_cipher.md R157). -/

namespace Sys2Proof.Machine

/-! ## `KEYVALID`, `RK` and `KEY` over one step (R34, R69) -/

/-- The next event completes KEYEXP (R154). -/
def CompletesKeyexp (s : State) : Prop :=
  s.status.busy = true ∧ nextEvent s = .complete ∧ decode s.ifc = .ok .keyexp

/-- The next event writes a word of `KEY`, or it is a reset: the two kinds of event that leave `KEYVALID`=0 (R34). -/
def WritesKey (s : State) : Prop :=
  (∃ off v, nextEvent s = .write off 4 v ∧ s.status.busy = false ∧ off.toNat % 4 = 0 ∧ 0x20 ≤ off.toNat ∧
    off.toNat < 0x30) ∨ nextEvent s = .reset

/-- Only a write to a word of `KEY` changes `KEYVALID` (R67, R69). -/
theorem writeTarget_keyValid (a : Target) (v : Word) (s : State) (h : ∀ k, a ≠ .key k) :
    (writeTarget a v s).status.keyValid = s.status.keyValid := by
  cases a with
  | key k => exact absurd rfl (h k)
  | _ => rfl

/-- A write taken while `BUSY`=0 that is none of a word of `KEY` has another target. -/
theorem targetAt_ne_key {s : State} {off : Offset} {v : Word} (event : nextEvent s = .write off 4 v)
    (busy : s.status.busy = false) (aligned : off.toNat % 4 = 0) (h : ¬ WritesKey s) (k : Fin 4) :
    targetAt off ≠ .key k := fun target =>
  h (.inl ⟨off, v, event, busy, aligned, targetAt_eq_key off k target⟩)

/-- `KEYVALID` over one step (R34). -/
theorem step_keyValid {s t : State} (h : step s = .next t) :
    FlagStep (CompletesKeyexp s) (WritesKey s) s.status.keyValid t.status.keyValid := by
  cases step_kind s t h with
  | quiet r d event turn write result =>
    refine .kept (fun ⟨busy, complete, _⟩ => by simp [turn complete] at busy) ?_ (by simp [result])
    rintro (⟨off, v, e, _, aligned, hl, _⟩ | e)
    · obtain ⟨rfl, _⟩ := write off v e aligned
      simp at hl
    · exact event e
  | dropped off v event _ busy result =>
    exact .kept (by simp [CompletesKeyexp, event]) (by simp [WritesKey, event, busy]) (by simp [result])
  | started v i event _ _ _ _ result =>
    exact .kept (by simp [CompletesKeyexp, event]) (by simp [WritesKey, event]) (by simp [result])
  | raised v w code event _ _ result =>
    exact .kept (by simp [CompletesKeyexp, event]) (by simp [WritesKey, event]) (by simp [result])
  | written off v event aligned busy _ result =>
    have hs : ¬ CompletesKeyexp s := by simp [CompletesKeyexp, event]
    by_cases hv : WritesKey s
    · obtain ⟨hl, hu⟩ : 0x20 ≤ off.toNat ∧ off.toNat < 0x30 := by simpa [WritesKey, event, busy, aligned] using hv
      exact .cleared hs hv (by rw [result, targetAt_eq_key_columnOf hl hu]; rfl)
    · exact .kept hs hv (by rw [result, writeTarget_keyValid _ _ _ (targetAt_ne_key event busy aligned hv)]; rfl)
  | completed i event busy decoded result =>
    have hc : ¬ WritesKey s := by simp [WritesKey, event]
    by_cases hi : i = .keyexp
    · subst hi
      exact .set ⟨busy, event, decoded⟩ hc (by rw [result]; rfl)
    · exact .kept (by simp [CompletesKeyexp, decoded, hi]) hc (by simp [result, commandEffect_keyValid i _ hi])
  | reset event result => exact .cleared (by simp [CompletesKeyexp, event]) (.inr event) (by rw [result]; rfl)

/-- Settles O56, from how `KEYVALID` moves over one step. -/
theorem keyValidSetOnlyByKeyexp : Obligations.KeyValidSetOnlyByKeyexp := by
  intro s t h
  have flag := step_keyValid h
  exact ⟨flag.setter_of_rise, fun busy event decoded => flag.eq_true ⟨busy, event, decoded⟩,
    fun off v event busy aligned hl hu => flag.eq_false (.inl ⟨off, v, event, busy, aligned, hl, hu⟩),
    fun event => flag.eq_false (.inr event), flag.clearer_of_fall⟩

/-- Only the completion of KEYEXP and a reset write `RK` (R23, R26). -/
theorem step_rk {s t : State} (h : step s = .next t) (keyexp : ¬ CompletesKeyexp s) (reset : nextEvent s ≠ .reset) :
    t.rk = s.rk := by
  cases step_kind s t h with
  | quiet _ _ _ _ _ result => rw [result]; rfl
  | dropped _ _ _ _ _ result => rw [result]; rfl
  | started _ _ _ _ _ _ _ result => rw [result]; rfl
  | raised _ _ _ _ _ _ result => rw [result]; rfl
  | written _ v _ _ _ _ result => rw [result, writeTarget_rk]; rfl
  | completed i event busy decoded result =>
    have other : i ≠ .keyexp := by rintro rfl; exact keyexp ⟨busy, event, decoded⟩
    rw [result, finishCommand_rk, commandEffect_rk i _ other]; rfl
  | reset event _ => exact absurd event reset

/-- Only a write to a word of `KEY` and a reset write `KEY`: no command does (R22, R26). -/
theorem step_key {s t : State} (h : step s = .next t) (other : ¬ WritesKey s) : t.key = s.key := by
  cases step_kind s t h with
  | quiet _ _ _ _ _ result => rw [result]; rfl
  | dropped _ _ _ _ _ result => rw [result]; rfl
  | started _ _ _ _ _ _ _ result => rw [result]; rfl
  | raised _ _ _ _ _ _ result => rw [result]; rfl
  | written off v event aligned busy _ result =>
    rw [result, writeTarget_key _ _ _ (targetAt_ne_key event busy aligned other)]; rfl
  | completed i _ _ _ result => rw [result, finishCommand_key, commandEffect_key]; rfl
  | reset event _ => exact absurd (.inr event) other

/-- Settles O58, by contraposition. -/
theorem keyMaterialChangesOnlyByItsWriters : Obligations.KeyMaterialChangesOnlyByItsWriters := by
  refine fun s t h => ⟨fun changed => ?_, fun changed => ?_⟩
  · by_contra other
    obtain ⟨keyexp, reset⟩ := not_or.1 other
    exact changed (step_rk h keyexp reset)
  · by_contra other
    refine changed (step_key h ?_)
    rintro (⟨off, v, event, busy, _, hl, hu⟩ | reset)
    · exact other (.inl ⟨off, v, event, busy, hl, hu⟩)
    · exact other (.inr reset)

/-! ## Bus traffic while a command is in flight (R43, R65, R68) -/

namespace SameRegisters

variable {s t : State} (h : SameRegisters s t)
include h

/-! The same value written to a register of both states keeps their registers the same. -/

theorem set_st {A B : Block} (e : B = A) : SameRegisters { s with st := A } { t with st := B } := { h with st := e }

theorem set_gfp {a b : Byte} (e : b = a) : SameRegisters { s with gfp := a } { t with gfp := b } := { h with gfp := e }

theorem set_mpr {v w : Word} (e : w = v) : SameRegisters { s with mpr := v } { t with mpr := w } := { h with mpr := e }

theorem set_rk {Q R : RoundKeys} (e : R = Q) :
    SameRegisters { s with rk := Q, status := { s.status with keyValid := true } }
      { t with rk := R, status := { t.status with keyValid := true } } :=
  { h with rk := e, keyValid := rfl }

theorem finish : SameRegisters (finishCommand s) (finishCommand t) := { h with busy := rfl, done := rfl }

/-- The result of a modular command is a function of the operand registers (R174, R175). -/
theorem modpowResult_eq : modpowResult t = modpowResult s := by
  simp only [modpowResult, h.mpb, h.mpe, h.mpm]

/-- A command's effect is a function of the registers (R26). -/
theorem effect (i : Instr) : SameRegisters (commandEffect i s) (commandEffect i t) := by
  cases i with
  | nop => exact h
  | subbytes => exact h.set_st (congrArg subBytes h.st)
  | shiftrows => exact h.set_st (congrArg shiftRows h.st)
  | mixcolumns => exact h.set_st (congrArg mixColumns h.st)
  | addroundkey r =>
    by_cases hr : r.toNat < 11
    · rw [commandEffect_addroundkey s hr, commandEffect_addroundkey t hr]
      exact h.set_st (by simp only [h.st, h.rk])
    · simpa only [commandEffect, dif_neg hr] using h
  | keyexp => exact h.set_rk (congrArg keyExpansion h.key)
  | encrypt => exact h.set_st (congrArg₂ cipher h.st h.rk)
  | gfmul => exact h.set_gfp (congrArg₂ gfmul h.gfa h.gfb)
  | modpow => exact h.set_mpr h.modpowResult_eq
  | rsaenc => exact h.set_mpr h.modpowResult_eq

end SameRegisters

/-- A transaction while `BUSY`=1 changes no register but `OVR`, and not the word in flight (R65, R68). -/
theorem step_transaction_busy {s : State} {e : Event} {rest : List Event} (hi : s.inbox = e :: rest)
    (transaction : e.isTransaction = true) (busy : s.status.busy = true) :
    ∃ t, step s = .next t ∧ SameRegisters s t ∧ t.ifc = s.ifc ∧ t.inbox = rest := by
  rw [step_cons s e rest hi]
  cases e with
  | read off n =>
    obtain ⟨r, d, read⟩ := busRead_eq off n { s with inbox := rest }
    exact ⟨_, congrArg Host.Outcome.next read, by constructor <;> rfl, rfl, rfl⟩
  | write off n v =>
    rcases busWrite_cases off n v { s with inbox := rest } with
      ⟨_, e⟩ | ⟨_, _, e⟩ | ⟨_, idle, _⟩ | ⟨_, idle, _⟩
    · exact ⟨_, e, by constructor <;> rfl, rfl, rfl⟩
    · exact ⟨_, e, by constructor <;> rfl, rfl, rfl⟩
    · exact absurd (busy.symm.trans idle) nofun
    · exact absurd (busy.symm.trans idle) nofun
  | complete => cases transaction
  | reset => cases transaction

/-- After any transactions, the completion of the command in flight leaves the registers it would have left at once. -/
theorem run_transactions_then_complete {i : Instr} {evs rest : List Event} {s : State} (busy : s.status.busy = true)
    (decoded : decode s.ifc = .ok i) (transactions : ∀ e ∈ evs, e.isTransaction = true)
    (hi : s.inbox = evs ++ .complete :: rest) :
    ∃ t, Host.Core.run core (evs.length + 1) s = .next t ∧ SameRegisters (finishCommand (commandEffect i s)) t ∧
      t.inbox = rest := by
  induction evs generalizing s with
  | nil =>
    have last := (step_cons s .complete rest hi).trans (coreTurn_busy { s with inbox := rest } i busy decoded)
    exact ⟨_, run_one last, (SameRegisters.effect (by constructor <;> rfl) i).finish, by simp⟩
  | cons e evs ih =>
    obtain ⟨now, later⟩ := List.forall_mem_cons.1 transactions
    obtain ⟨u, h, same, ifc, inbox⟩ := step_transaction_busy hi now busy
    obtain ⟨t, run, result, left⟩ := ih (same.busy.trans busy) (ifc ▸ decoded) later inbox
    exact ⟨t, (run_succ _ s u h).trans run, (same.effect i).finish.trans result, left⟩

/-- Settles O59: what the completion at once answers is `u`. -/
theorem busyTrafficCannotChangeTheResult : Obligations.BusyTrafficCannotChangeTheResult := by
  intro s u i evs rest busy decoded transactions hi h
  cases (exec_busy i s (wellFormed_of_decode _ i decoded) busy).symm.trans h
  exact run_transactions_then_complete busy decoded transactions hi

/-! ## ENCRYPT and the primitive commands (R157) -/

/-- Between two commands of a cipher under the keys of `s`, with `ST` at `A`: no command in flight, no error, a valid
key set. -/
structure CipherAt (s : State) (A : Block) (t : State) : Prop where
  st : t.st = A
  key : t.key = s.key
  rk : t.rk = s.rk
  keyValid : t.status.keyValid = true
  busy : t.status.busy = false
  errf : t.status.errf = false

/-- Under the keys of `s`, running `is` leads `ST` from `A` to `B`. -/
def Transforms (s : State) (is : List Instr) (A B : Block) : Prop :=
  ∀ t, CipherAt s A t → ∃ u, runInOrder is t = .next u ∧ CipherAt s B u

theorem runInOrder_singleton (i : Instr) (s : State) : runInOrder [i] s = runAtOnce i s := by
  unfold runInOrder
  cases runAtOnce i s <;> rfl

/-- A list of commands runs as its first part, then its second. -/
theorem runInOrder_append {is js : List Instr} {s t : State} (h : runInOrder is s = .next t) :
    runInOrder (is ++ js) s = runInOrder js t := by
  induction is generalizing s with
  | nil => cases h; rfl
  | cons i is ih =>
    simp only [List.cons_append, runInOrder] at h ⊢
    cases run : runAtOnce i s with
    | next u => rw [run] at h; exact ih h
    | fault r => rw [run] at h; cases h
    | refused r => rw [run] at h; cases h

theorem Transforms.append {s : State} {is js : List Instr} {A B C : Block} (h : Transforms s is A B)
    (k : Transforms s js B C) : Transforms s (is ++ js) A C := by
  intro t ht
  obtain ⟨u, ran, hu⟩ := h t ht
  obtain ⟨v, ranNext, hv⟩ := k u hu
  exact ⟨v, (runInOrder_append ran).trans ranNext, hv⟩

/-- One command whose preconditions a valid key set meets, and whose effect is on `ST` alone (R96). -/
theorem Transforms.single {s : State} {i : Instr} {A B : Block} (hw : i.wellFormed = true)
    (checked : ∀ t : State, t.status.keyValid = true → preconditionFailure i t = none)
    (effect : ∀ t : State, t.st = A → t.rk = s.rk → commandEffect i t = { t with st := B }) :
    Transforms s [i] A B := by
  intro t h
  have run : runAtOnce i t = .next (finishCommand { startCommand (encode i) t with st := B }) := by
    rw [runAtOnce_start hw h.busy h.errf (checked t h.keyValid), effect (startCommand (encode i) t) h.st h.rk]
  exact ⟨_, (runInOrder_singleton i t).trans run, rfl, h.key, h.rk, h.keyValid, rfl, h.errf⟩

theorem transforms_subbytes (s : State) (A : Block) : Transforms s [.subbytes] A (subBytes A) :=
  .single rfl (fun _ _ => rfl) fun _ st _ => by rw [← st]; rfl

theorem transforms_shiftrows (s : State) (A : Block) : Transforms s [.shiftrows] A (shiftRows A) :=
  .single rfl (fun _ _ => rfl) fun _ st _ => by rw [← st]; rfl

theorem transforms_mixcolumns (s : State) (A : Block) : Transforms s [.mixcolumns] A (mixColumns A) :=
  .single rfl (fun _ _ => rfl) fun _ st _ => by rw [← st]; rfl

theorem transforms_addroundkey (s : State) (A : Block) {r : BitVec 4} (hr : r.toNat < 11) :
    Transforms s [.addroundkey r] A (addRoundKey A s.rk[r.toNat]) :=
  .single (decide_eq_true (Nat.le_of_lt_succ hr)) (fun _ keyValid => if_pos keyValid)
    fun t st rk => by rw [commandEffect_addroundkey t hr, st]; simp only [rk]

theorem transforms_encrypt (s : State) (A : Block) : Transforms s [.encrypt] A (cipher A s.rk) :=
  .single rfl (fun _ keyValid => if_pos keyValid) fun _ st rk => by rw [← st, ← rk]; rfl

/-- The four commands of full round `r` (R100, R157). -/
def roundCommands (r : BitVec 4) : List Instr := [.subbytes, .shiftrows, .mixcolumns, .addroundkey r]

/-- The four commands of a full round do the round (R155). -/
theorem transforms_roundCommands (s : State) (A : Block) {r : BitVec 4} (hr : r.toNat < 11) :
    Transforms s (roundCommands r) A (cipherRound A s.rk[r.toNat]) :=
  (((transforms_subbytes s A).append (transforms_shiftrows s _)).append (transforms_mixcolumns s _)).append
    (transforms_addroundkey s _ hr)

/-- The index field that names a round key (R92). -/
def rksel (r : Fin 11) : BitVec 4 := BitVec.ofNat 4 r.val

theorem toNat_rksel : ∀ r : Fin 11, (rksel r).toNat = r.val := by decide

/-- Full rounds one after another are the fold of the rounds (R155). -/
theorem transforms_rounds (s : State) (rs : List (Fin 11)) (A : Block) :
    Transforms s (rs.flatMap fun r => roundCommands (rksel r)) A (rs.foldl (fun S r => cipherRound S s.rk[r]) A) := by
  induction rs generalizing A with
  | nil => exact fun t h => ⟨t, rfl, h⟩
  | cons r rs ih =>
    have round := transforms_roundCommands s A (r := rksel r) (toNat_rksel r ▸ r.isLt)
    simp only [toNat_rksel] at round
    rw [List.flatMap_cons, List.foldl_cons]
    exact round.append (ih _)

theorem map_rksel_fullRounds : fullRounds.map rksel = [1, 2, 3, 4, 5, 6, 7, 8, 9] := by decide

/-- The 40 commands: the first AddRoundKey, the full rounds, the last round (R157). -/
theorem primitiveCipher_eq :
    primitiveCipher = [Instr.addroundkey 0] ++ fullRounds.flatMap (fun r => roundCommands (rksel r))
      ++ ([Instr.subbytes] ++ [Instr.shiftrows] ++ [Instr.addroundkey 10]) := by
  rw [← List.flatMap_map, map_rksel_fullRounds]
  rfl

theorem transforms_primitiveCipher (s : State) (A : Block) : Transforms s primitiveCipher A (cipher A s.rk) := by
  rw [primitiveCipher_eq]
  exact ((transforms_addroundkey s A (r := 0) (by decide)).append (transforms_rounds s fullRounds _)).append
    (((transforms_subbytes s _).append (transforms_shiftrows s _)).append
      (transforms_addroundkey s _ (r := 10) (by decide)))

/-- Settles O60: both runs lead `ST` to its cipher. -/
theorem encryptEqualsThePrimitives : Obligations.EncryptEqualsThePrimitives := by
  intro s keyValid busy errf
  have start : CipherAt s s.st s := ⟨rfl, rfl, rfl, keyValid, busy, errf⟩
  obtain ⟨t, primitives, ht⟩ := transforms_primitiveCipher s s.st s start
  obtain ⟨u, encrypt, hu⟩ := transforms_encrypt s s.st s start
  exact ⟨t, u, primitives, encrypt, ht.st.trans hu.st.symm, ht.key.trans hu.key.symm, ht.rk.trans hu.rk.symm,
    ht.keyValid.trans hu.keyValid.symm⟩

end Sys2Proof.Machine
end
